-- ==== Sys2Proof/Word.lean ====
section
/-! DEFINITION. The two word types of the encoder block (00_scope.md R8): every quantity that crosses the bus is an unsigned
byte, and the data lines of the controller carry half of one. -/

namespace Sys2Proof

/-- A byte, bits 7 (most significant) down to 0 (R8). -/
abbrev Byte := BitVec 8

/-- A nibble: "4-bit half of an 8-bit command" (R12). -/
abbrev Nibble := BitVec 4

end Sys2Proof
end

