-- ==== Sys2Proof/Config.lean ====
section
/-! DEFINITION. What an implementation fixes (00_scope.md R6, every row of its table, with its default) and the free values
(values the spec leaves to the environment or calls unspecified: opaque constants with no body). -/

namespace Sys2Proof

/-- The four delay classes of `WAIT` (R99, R122). -/
inductive DelayClass where
  /-- `WR`, `T_WR`: "command settle", after every bus write. -/
  | wr
  /-- `EH`, `T_EH`: "strobe high time". -/
  | eh
  /-- `EL`, `T_EL`: "strobe low settle". -/
  | el
  /-- `INIT`, `T_INIT`: "post-initialization settle". -/
  | init
  deriving DecidableEq, Repr

/-- `BOOT_FORM`, how a bootstrap nibble reaches the bus (R6, 92_eei_decisions.md D5). -/
inductive BootForm where
  /-- One STROBE of the nibble byte `(v << 4) & 0xF0`: the spec's decision and default. -/
  | strobedNibble
  /-- The value goes through `SENDBYTE v, 0`. -/
  | fullByte
  /-- One bus write of the byte `v` itself with `WAIT WR` after it, no strobe. -/
  | rawWrite
  deriving DecidableEq, Repr

/-- `ROW_OOR_POLICY`, what a row that has no base does (R6, R189, 92_eei_decisions.md D11). -/
inductive RowPolicy where
  /-- Refused with `BadRow`, nothing emitted: the default. -/
  | refuse
  /-- The row base is taken as `0x00`. -/
  | zeroOffset
  /-- The whole position is taken as zero: the address byte is the command base alone. -/
  | zeroPosition
  deriving DecidableEq, Repr

/-- The transport's answer to one bus write (R10, R52). -/
inductive Reply where
  | ok
  | fail
  deriving DecidableEq, Repr, Inhabited

/-- The implementation parameters, one field for each row of R6's table. -/
structure Config where
  /-- `EN_BIT`, mask of the enable bit. -/
  enBit : Byte
  /-- `BL_BIT`, mask of the backlight bit. -/
  blBit : Byte
  /-- `RS_BIT`, mask of the register-select bit. -/
  rsBit : Byte
  /-- `RW_BIT`, mask of the read/write bit, 0 on the wire. -/
  rwBit : Byte
  /-- `T_WR` in microseconds. -/
  tWr : Nat
  /-- `T_EH` in microseconds. -/
  tEh : Nat
  /-- `T_EL` in microseconds. -/
  tEl : Nat
  /-- `T_INIT` in microseconds. -/
  tInit : Nat
  /-- `ROW_BASE[1..4]`, row 1 first. -/
  rowBase : List Byte
  /-- `N_ROWS`, the number of valid rows: rows `1 .. N_ROWS` are valid. -/
  nRows : Nat
  /-- `CMD_CLEAR`. -/
  cmdClear : Byte
  /-- `CMD_HOME`. -/
  cmdHome : Byte
  /-- `CMD_SETDDRAM`, the address-set command base. -/
  cmdSetddram : Byte
  /-- `CMD_FUNCSET`. -/
  cmdFuncset : Byte
  /-- `CMD_DISPCTL`. -/
  cmdDispctl : Byte
  /-- `CMD_ENTRY`. -/
  cmdEntry : Byte
  /-- `BOOT_NIB_8BIT`, sent three times. -/
  bootNib8 : Nibble
  /-- `BOOT_NIB_4BIT`, sent once. -/
  bootNib4 : Nibble
  /-- `BOOT_FORM`. -/
  bootForm : BootForm
  /-- `ROW_OOR_POLICY`. -/
  rowPolicy : RowPolicy
  /-- `DEV_ADDR`: OPEN, used by no rule (R51). DESIGN CHOICE: the spec gives it no width, and the model holds it as a natural
  number of no fixed width (notes/assumptions/20.md). -/
  devAddr : Option Nat
  /-- `MAX_LEN`: OPEN, unbounded in the model (R6), used by no rule. -/
  maxLen : Option Nat
  /-- `F_CLK`: OPEN, no rule depends on it (R126). DESIGN CHOICE: the spec gives it no unit; the model's is a whole number of
  hertz (notes/assumptions/20.md). -/
  fClk : Option Nat
  deriving DecidableEq, Repr

/-- The defaults of R6. -/
def Config.default : Config where
  enBit := 0x04#8
  blBit := 0x08#8
  rsBit := 0x01#8
  rwBit := 0x02#8
  tWr := 100
  tEh := 500
  tEl := 100
  tInit := 200000
  rowBase := [0x00#8, 0x40#8, 0x14#8, 0x54#8]
  nRows := 4
  cmdClear := 0x01#8
  cmdHome := 0x02#8
  cmdSetddram := 0x80#8
  cmdFuncset := 0x28#8
  cmdDispctl := 0x0C#8
  cmdEntry := 0x06#8
  bootNib8 := 0x3#4
  bootNib4 := 0x2#4
  bootForm := .strobedNibble
  rowPolicy := .refuse
  devAddr := none
  maxLen := none
  fClk := none

/-- The four single-bit masks inside the low nibble (R7). -/
def Config.flagMasks : List Byte := [0x01#8, 0x02#8, 0x04#8, 0x08#8]

/-- R7: `EN_BIT`, `BL_BIT`, `RS_BIT`, `RW_BIT` are four distinct single-bit masks, all inside the low nibble. -/
abbrev Config.wf (c : Config) : Prop :=
  c.enBit ∈ Config.flagMasks ∧ c.blBit ∈ Config.flagMasks ∧ c.rsBit ∈ Config.flagMasks ∧ c.rwBit ∈ Config.flagMasks ∧
    [c.enBit, c.blBit, c.rsBit, c.rwBit].Nodup

/-- FREE VALUE: the transport's answer to a bus write for which the environment listed none (R5: "an input of every step
(an oracle answer)"), one for each draw. Nothing is known of it: a statement holds for every answer (notes/assumptions/4.md). -/
opaque Config.freeReply : Nat → Reply

/-- FREE VALUE: a byte the spec calls unspecified (the pins after a failed bus write, R36; the byte registers after a reset,
R240), one for each draw (notes/assumptions/5.md, 6.md). -/
opaque Config.freeByte : Nat → Byte

/-- FREE VALUE: a flag the spec calls unspecified (`RS` after a reset, R240), one for each draw. -/
opaque Config.freeBit : Nat → Bool

/-- FREE VALUE: a natural the spec calls unspecified (`IDX`, `LEN` after a reset, R240), one for each draw. -/
opaque Config.freeNat : Nat → Nat

end Sys2Proof
end

