-- ==== Sys2Proof/Syntax.lean ====
section
/-! DEFINITION. The operations of the block: one constructor for each row of spec/opcode_table.json (30_encoding.md R100,
R102; the rows of kind wire_phase are R94's two wire bytes, the emitted rows are R83 to R90). -/

namespace Sys2Proof

/-- The operation set. -/
inductive Instr where
  /-- `INIT` (R160): the request that runs the initialisation sequence. -/
  | init
  /-- `CLEAR` (R181): the request that clears the display and homes the cursor. -/
  | clear
  /-- `WRSTR text, row, col` (R186): the request that writes a string; its text stands in the `TXT` space (R98). -/
  | wrstr (row col : Byte)
  /-- `SETADDR row, col` (R183): send the address-set command of a position. -/
  | setaddr (row col : Byte)
  /-- `WRDATA b` (R185): send one character byte to the data register. -/
  | wrdata (b : Byte)
  /-- `SENDBYTE c, rs` (R146): one byte as two nibble transactions. -/
  | sendbyte (c : Byte) (rs : Bool)
  /-- `BOOTNIB v` (R145): one bootstrap nibble. -/
  | bootnib (v : Nibble)
  /-- `STROBE n` (R141): one nibble transaction. -/
  | strobe (n : Byte)
  /-- `BUSWR b` (R120): one physical bus write. -/
  | buswr (b : Byte)
  /-- `WAIT k` (R123): one delay. -/
  | wait (k : DelayClass)
  /-- `EH` (R94): the enable-high wire byte of data nibble `d` and flag `r`. -/
  | eh (d : Nibble) (r : Bool)
  /-- `EL` (R94): the enable-low wire byte of data nibble `d` and flag `r`. -/
  | el (d : Nibble) (r : Bool)
  /-- `CMD_CLEAR` (R84), `0000 0001`. -/
  | cmdClear
  /-- `CMD_HOME` (R85), `0000 0010`. -/
  | cmdHome
  /-- `CMD_ENTRY` (R86), `0000 01 ID S`. -/
  | cmdEntry (id sh : Bool)
  /-- `CMD_DISPCTL` (R87), `0000 1 D C B`. -/
  | cmdDispctl (d c b : Bool)
  /-- `CMD_FUNCSET` (R88), `001 DL N F 00`. -/
  | cmdFuncset (dl n f : Bool)
  /-- `CMD_SETDDRAM` (R89), `1 aaaaaaa`. -/
  | cmdSetddram (a : BitVec 7)
  /-- `DATA` (R90): any byte, sent with `RS = 1`. -/
  | data (b : Byte)
  deriving DecidableEq, Repr

/-- The three operations that can be presented at the request port (R102). -/
def Instr.isRequest : Instr → Bool
  | .init | .clear | .wrstr _ _ => true
  | .setaddr _ _ | .wrdata _ | .sendbyte _ _ | .bootnib _ | .strobe _ | .buswr _ | .wait _ | .eh _ _ | .el _ _
  | .cmdClear | .cmdHome | .cmdEntry _ _ | .cmdDispctl _ _ _ | .cmdFuncset _ _ _ | .cmdSetddram _ | .data _ => false

end Sys2Proof
end

