-- ==== Sys2Proof/WellFormed.lean ====
section
/-! DEFINITION. Which terms of `Instr` are operations. The operand types carry every bound but one: the operand of `STROBE` is
a nibble byte (30_encoding.md R82). A row outside 1 to 4 is no ill-formed term: WRSTR with such a row is a request the block
answers (43_display_operations.md R189). -/

namespace Sys2Proof

/-- R82: the `EN`, `BL` and `RW` bits of a nibble byte are 0, so `n & ~(0xF0 | RS_BIT) = 0`. -/
abbrev nibbleByteOk (c : Config) (n : Byte) : Bool := n &&& ~~~(0xF0#8 ||| c.rsBit) == 0#8

/-- Well-formed under the parameters `c`. -/
def Instr.wfIn (c : Config) : Instr → Bool
  | .strobe n => nibbleByteOk c n
  | .init | .clear | .wrstr _ _ | .setaddr _ _ | .wrdata _ | .sendbyte _ _ | .bootnib _ | .buswr _ | .wait _ | .eh _ _
  | .el _ _ | .cmdClear | .cmdHome | .cmdEntry _ _ | .cmdDispctl _ _ _ | .cmdFuncset _ _ _ | .cmdSetddram _ | .data _ => true

/-- Well-formed under the default parameters, which the encodings of spec/opcode_table.json assume. -/
abbrev Instr.wf (i : Instr) : Bool := i.wfIn Config.default

end Sys2Proof
end

