-- ==== Sys2Proof/Decode.lean ====
section
/-! DEFINITION. The encodings of 30_encoding.md and spec/opcode_table.json, read and written.

A word has a meaning only in its CLASS: the table gives eight-bit rows in six formats, and one byte may be a row of each. The
class is the table's (kind, format) pair. The decoder takes a class and the word's bits as a number with bit 0 the least
significant, answers for every number, and rejects by name. Bit positions are those of the default parameters, as in the table. -/

namespace Sys2Proof

/-- R8: the slice `w[hi:lo]`. -/
def slice (w hi lo : Nat) : Nat := w / 2 ^ lo % 2 ^ (hi - lo + 1)

/-- R8: the bit `w[i]`. -/
def bitAt (w i : Nat) : Bool := slice w i i == 1

/-- A flag as the number its bit holds. -/
def bitNum (b : Bool) : Nat := if b then 1 else 0

/-- The classes of word: the table's kind and format (R80). -/
inductive WordClass where
  /-- request, `REQ` (R97): INIT, CLEAR, WRSTR. -/
  | req
  /-- internal, `INT16`: SETADDR. -/
  | int16
  /-- internal, `INT9`: SENDBYTE. -/
  | int9
  /-- internal, `INT8`: WRDATA. -/
  | int8
  /-- internal, `BOOT` (R91): BOOTNIB. -/
  | boot
  /-- internal, `NIBBLE` (R82): STROBE. -/
  | nibble
  /-- primitive, `WIRE` (R81): BUSWR. -/
  | wire
  /-- primitive, `WSEL` (R99): WAIT. -/
  | wsel
  /-- wire phase, `WIRE` (R94): EH, EL. -/
  | phase
  /-- emitted command, `CMD` with `RS = 0` (R83): the six commands. -/
  | cmd
  /-- emitted data, `CMD` with `RS = 1` (R90): DATA. -/
  | data
  deriving DecidableEq, Repr

/-- The width in bits of a word of the class (R80). -/
def WordClass.width : WordClass → Nat
  | .req => 18
  | .int16 => 16
  | .int9 => 9
  | .int8 => 8
  | .boot => 4
  | .nibble => 8
  | .wire => 8
  | .wsel => 2
  | .phase => 8
  | .cmd => 8
  | .data => 8

/-- Why a word is no operation. -/
inductive DecodeError where
  /-- The number has a bit above the class's width. -/
  | tooWide
  /-- `REQ.op = 3` (R101 a): the request port answers it with `BadOp`. -/
  | reservedOp
  /-- A `NIBBLE` word whose `BL`, `EN` or `RW` bit is set (R82). -/
  | notNibbleByte
  /-- A `WIRE` word that is neither wire phase: `RW = 1` or `BL = 0` (R101 c, d). -/
  | notWirePhase
  /-- A `CMD` word with `RS = 0` that is none of the six emitted commands (R101 e). -/
  | neverEmitted
  deriving DecidableEq, Repr

/-- R97: the request word. The row and column fields of INIT and CLEAR are ignored. -/
def decodeReq (w : Nat) : Except DecodeError Instr :=
  match slice w 17 16 with
  | 0 => .ok .init
  | 1 => .ok .clear
  | 2 => .ok (.wrstr (BitVec.ofNat 8 (slice w 15 8)) (BitVec.ofNat 8 (slice w 7 0)))
  | _ => .error .reservedOp

/-- R99: `0` = `WR`, `1` = `EH`, `2` = `EL`, `3` = `INIT`. -/
def decodeWsel (w : Nat) : DelayClass :=
  match slice w 1 0 with
  | 0 => .wr
  | 1 => .eh
  | 2 => .el
  | _ => .init

/-- R82: bits 3 to 1 of a nibble byte are 0. -/
def decodeNibble (w : Nat) : Except DecodeError Instr :=
  if slice w 3 1 = 0 then .ok (.strobe (BitVec.ofNat 8 w)) else .error .notNibbleByte

/-- R94 with the default parameters: `dddd110r` is `EH`, `dddd100r` is `EL`. -/
def decodePhase (w : Nat) : Except DecodeError Instr :=
  match slice w 3 1 with
  | 6 => .ok (.eh (BitVec.ofNat 4 (slice w 7 4)) (bitAt w 0))
  | 4 => .ok (.el (BitVec.ofNat 4 (slice w 7 4)) (bitAt w 0))
  | _ => .error .notWirePhase

/-- R83: the leading one of a command byte is its opcode. The two low bits of function set are no part of its class. -/
def decodeCmd (w : Nat) : Except DecodeError Instr :=
  if w = 0x01 then .ok .cmdClear
  else if w = 0x02 then .ok .cmdHome
  else if slice w 7 2 = 1 then .ok (.cmdEntry (bitAt w 1) (bitAt w 0))
  else if slice w 7 3 = 1 then .ok (.cmdDispctl (bitAt w 2) (bitAt w 1) (bitAt w 0))
  else if slice w 7 5 = 1 then .ok (.cmdFuncset (bitAt w 4) (bitAt w 3) (bitAt w 2))
  else if slice w 7 7 = 1 then .ok (.cmdSetddram (BitVec.ofNat 7 (slice w 6 0)))
  else .error .neverEmitted

/-- The decoder: any class, any number. -/
def decode (k : WordClass) (w : Nat) : Except DecodeError Instr :=
  if w < 2 ^ k.width then
    match k with
    | .req => decodeReq w
    | .int16 => .ok (.setaddr (BitVec.ofNat 8 (slice w 15 8)) (BitVec.ofNat 8 (slice w 7 0)))
    | .int9 => .ok (.sendbyte (BitVec.ofNat 8 (slice w 7 0)) (bitAt w 8))
    | .int8 => .ok (.wrdata (BitVec.ofNat 8 w))
    | .boot => .ok (.bootnib (BitVec.ofNat 4 w))
    | .nibble => decodeNibble w
    | .wire => .ok (.buswr (BitVec.ofNat 8 w))
    | .wsel => .ok (.wait (decodeWsel w))
    | .phase => decodePhase w
    | .cmd => decodeCmd w
    | .data => .ok (.data (BitVec.ofNat 8 w))
  else .error .tooWide

/-- The class in which the table encodes an operation. -/
def Instr.wordClass : Instr → WordClass
  | .init | .clear | .wrstr _ _ => .req
  | .setaddr _ _ => .int16
  | .wrdata _ => .int8
  | .sendbyte _ _ => .int9
  | .bootnib _ => .boot
  | .strobe _ => .nibble
  | .buswr _ => .wire
  | .wait _ => .wsel
  | .eh _ _ | .el _ _ => .phase
  | .cmdClear | .cmdHome | .cmdEntry _ _ | .cmdDispctl _ _ _ | .cmdFuncset _ _ _ | .cmdSetddram _ => .cmd
  | .data _ => .data

/-- R99, written. -/
def encodeWsel : DelayClass → Nat
  | .wr => 0
  | .eh => 1
  | .el => 2
  | .init => 3

/-- The word of an operation in its class: fields the table calls ignored, or emitted as `00`, are written 0. -/
def encode : Instr → Nat
  | .init => 0x00000
  | .clear => 0x10000
  | .wrstr row col => 0x20000 + row.toNat * 0x100 + col.toNat
  | .setaddr row col => row.toNat * 0x100 + col.toNat
  | .wrdata b => b.toNat
  | .sendbyte c rs => bitNum rs * 0x100 + c.toNat
  | .bootnib v => v.toNat
  | .strobe n => n.toNat
  | .buswr b => b.toNat
  | .wait k => encodeWsel k
  | .eh d r => d.toNat * 0x10 + 0x0C + bitNum r
  | .el d r => d.toNat * 0x10 + 0x08 + bitNum r
  | .cmdClear => 0x01
  | .cmdHome => 0x02
  | .cmdEntry id sh => 0x04 + bitNum id * 2 + bitNum sh
  | .cmdDispctl d c b => 0x08 + bitNum d * 4 + bitNum c * 2 + bitNum b
  | .cmdFuncset dl n f => 0x20 + bitNum dl * 0x10 + bitNum n * 8 + bitNum f * 4
  | .cmdSetddram a => 0x80 + a.toNat
  | .data b => b.toNat

/-- The operation read, `none` where the decoder rejects. -/
def decode? (k : WordClass) (w : Nat) : Option Instr :=
  match decode k w with
  | .ok i => some i
  | .error _ => none

/-- The first of the classes in which the word is an operation. -/
def decodeFirst : List WordClass → Nat → Option Instr
  | [], _ => none
  | k :: ks, w =>
    match decode? k w with
    | some i => some i
    | none => decodeFirst ks w

/-- The classes tried for a word of `nbits` bits that comes with no class (notes/assumptions/3.md). -/
def tableClasses (nbits w : Nat) : List WordClass :=
  match nbits with
  | 24 | 18 => [.req]
  | 16 => if w < 0x200 then [.int9] else [.int16]
  | 9 => [.int9]
  | 8 => [.phase, .cmd, .nibble, .wire]
  | 4 => [.boot]
  | 2 => [.wsel]
  | _ => []

/-- The operation the decoder reads from a table word of which only the width is known. -/
def decodeTableWord (nbits w : Nat) : Option Instr := decodeFirst (tableClasses nbits w) w

end Sys2Proof
end

