-- ==== Sys2Proof/Machine/State.lean ====
section
/-! DEFINITION. Every piece of state of 10_state.md, the environment's inputs and outputs, the reasons a step can stop, and the
state after reset (R39, R240). -/

namespace Sys2Proof.Machine

/-- Bytes by address: strictly rising addresses, and an unlisted address reads as no value (it does not exist). Holds the
`TXT` space (R50, R54): `LEN` locations, indices `0 .. LEN-1`. -/
abbrev Memory := List Host.Cell

/-- The initialisation state `FSM` (R28). -/
inductive Fsm where
  | poweredUnknown
  | bit4ModeRequested
  | functionSetApplied
  | displayOnCleared
  | entryModeSet
  | ready
  | initFailed
  deriving DecidableEq, Repr

/-- The result codes (R201). -/
inductive ResultCode where
  | ok
  | ioError
  | initError
  | badState
  | badRow
  | badOp
  deriving DecidableEq, Repr

/-- `RESULT` (R33): the code, and `FAILIDX`. -/
structure Result where
  code : ResultCode
  failIdx : Nat
  deriving DecidableEq, Repr

/-- The events of the output trace (R10). -/
inductive Event where
  /-- `Wr(b, r)`: one bus write and the transport's reply. -/
  | wr (b : Byte) (r : Reply)
  /-- `Wait(k)`: at least `T_k` microseconds pass. -/
  | wait (k : DelayClass)
  deriving DecidableEq, Repr

/-- The request that is running (R26: "the running request's expansion"; R203 asks whether it is INIT). -/
inductive Job where
  | init
  | clear
  | wrstr
  deriving DecidableEq, Repr

/-- What the sequencer still has to do for the running request: operations, and the assignments that the pseudocode of INIT and
WRSTR places between them. -/
inductive Task where
  /-- An operation. -/
  | op (i : Instr)
  /-- `ISTEP <- n` and the transition of `FSM` beside it (R160). -/
  | initStep (n : Fin 10)
  /-- The test `IDX < LEN` of WRSTR's loop and its body (R186). -/
  | textLoop
  /-- `IDX <- IDX + 1`, then the test again (R186). -/
  | textNext
  deriving DecidableEq, Repr

/-- One request at the request port: the `REQ` word (R97) and the text beside it (R98). -/
structure Request where
  word : BitVec 18
  text : List Byte
  deriving DecidableEq, Repr

/-- The state of the machine. -/
structure State where
  /-- The parameters of R6, fixed for the life of the block; no step writes them (R38, R212). -/
  cfg : Config
  /-- `CMD` (R22). -/
  cmd : Byte
  /-- `RS` (R23). -/
  rs : Bool
  /-- `NIB` (R24). -/
  nib : Byte
  /-- `ROW` (R25). -/
  row : Byte
  /-- `COL` (R25). -/
  col : Byte
  /-- `ADDR` (R25). -/
  addr : Byte
  /-- `IDX` (R21). -/
  idx : Nat
  /-- `LEN` (R21). -/
  len : Nat
  /-- `upc`, the sequencer position (R26). -/
  upc : Nat
  /-- `nwr`, the successful bus writes of the running request so far (R127). -/
  nwr : Nat
  /-- The running request, if one runs (R26). -/
  running : Option Job
  /-- What is left of the running request: the operations that stand for `E[upc], E[upc+1], ...` (R26). -/
  todo : List Task
  /-- `FSM` (R28). -/
  fsm : Fsm
  /-- `ISTEP` (R29), 0 to 9. -/
  istep : Fin 10
  /-- `BL`, the backlight latch (R31). -/
  bl : Bool
  /-- `BUSY` (R32). -/
  busy : Bool
  /-- `RESULT` (R33). -/
  result : Result
  /-- `PINS`, the backpack's output latch (R36). -/
  pins : Byte
  /-- The `TXT` space of the request last taken from the port (R54). -/
  txt : Memory
  /-- Input: what the requester presents, in order; the head is at the port until the block takes it (R20, R65). -/
  requests : List Request
  /-- Input: the transport's answers to the bus writes to come; `none` is a write that never returns (R52, R226). -/
  replies : List (Option Reply)
  /-- Input: the reset line at each step to come (R240). -/
  resetIn : List Bool
  /-- Output: the trace (R10). -/
  trace : List Event
  /-- Output: the results returned to the requester (R11, R245). -/
  results : List Result
  /-- The model's own: how many free values have been drawn. -/
  draws : Nat
  deriving DecidableEq, Repr

/-- Why the machine has no step. -/
inductive Fault where
  /-- Raised by a bus write whose answer never comes: the write blocks for ever, "the block has no step of its own that gets
  past it" (R226; 93_implementation_defined.md U8, `stuck`). Safe. -/
  | transportHang
  /-- Raised by `MemRead(TXT + j, 1)` at an index that the `TXT` space does not have (R55: "No rule reads at `j >= LEN`"); no
  run from reset reaches it. Safe. -/
  | txtOutOfRange
  deriving DecidableEq, Repr

/-- Why an operation has no meaning. -/
inductive Refusal where
  /-- Raised by the dispatcher for an operation that has no meaning yet. No arm uses it now. Safe. -/
  | notModelled (mnemonic : String)
  deriving DecidableEq, Repr

/-- The machine after reset (R39, R240): the values the spec gives; 0 for the working registers and `PINS`, to which it gives
none (notes/assumptions/1.md); no request presented, no answer listed, nothing emitted. -/
def State.reset : State where
  cfg := Config.default
  cmd := 0#8
  rs := false
  nib := 0#8
  row := 0#8
  col := 0#8
  addr := 0#8
  idx := 0
  len := 0
  upc := 0
  nwr := 0
  running := none
  todo := []
  fsm := .poweredUnknown
  istep := 0
  bl := true
  busy := false
  result := ⟨.ok, 0⟩
  pins := 0#8
  txt := []
  requests := []
  replies := []
  resetIn := []
  trace := []
  results := []
  draws := 0

end Sys2Proof.Machine
end

