-- ==== Sys2Proof/Machine/Operands.lean ====
section
/-! DEFINITION. The assembly of fields (30_encoding.md R91 to R96): every operand form and every arithmetic law of the block. -/

namespace Sys2Proof.Machine

/-- R92: `RSM(rs)`. -/
def rsm (c : Config) (rs : Bool) : Byte := if rs then c.rsBit else 0x00#8

/-- R94: `BLM`. -/
def blm (c : Config) (bl : Bool) : Byte := if bl then c.blBit else 0x00#8

/-- R93: `HI(c, rs)`, the high nibble byte. -/
def hiNibble (c : Config) (b : Byte) (rs : Bool) : Byte := (b &&& 0xF0#8) ||| rsm c rs

/-- R93: `LO(c, rs)`, the low nibble byte. -/
def loNibble (c : Config) (b : Byte) (rs : Bool) : Byte := ((b <<< 4) &&& 0xF0#8) ||| rsm c rs

/-- R91: the nibble byte of a bootstrap value. -/
def bootNibble (v : Nibble) : Byte := (v.zeroExtend 8 <<< 4) &&& 0xF0#8

/-- R82: the nibble byte with data nibble `d` and register-select flag `r`. -/
def nibbleOf (c : Config) (d : Nibble) (r : Bool) : Byte := bootNibble d ||| rsm c r

/-- R94: `EH(n)`, the enable-high wire byte. -/
def wireHigh (c : Config) (bl : Bool) (n : Byte) : Byte := n ||| c.enBit ||| blm c bl

/-- R94: `EL(n)`, the enable-low wire byte, `&` binding tighter than `|`. -/
def wireLow (c : Config) (bl : Bool) (n : Byte) : Byte := (n &&& ~~~c.enBit) ||| blm c bl

/-- R56, R184: `ROW_BASE[row]`, defined for rows `1 .. N_ROWS` and no other. A valid row for which the table lists no base has
none either (notes/assumptions/10.md). -/
def rowBaseOf (c : Config) (row : Byte) : Option Byte :=
  if 1 ≤ row.toNat ∧ row.toNat ≤ c.nRows then c.rowBase[row.toNat - 1]? else none

/-- R95, R190: the 8-bit adder, carry discarded. -/
def addrSum (c : Config) (base col : Byte) : Byte := c.cmdSetddram + base + col

/-- R183 and R189: the address byte of a position, under the row policy. `none`: the row is refused. -/
def addrByte (c : Config) (row col : Byte) : Option Byte :=
  match rowBaseOf c row with
  | some base => some (addrSum c base col)
  | none =>
    match c.rowPolicy with
    | .refuse => none
    | .zeroOffset => some (addrSum c 0x00#8 col)
    | .zeroPosition => some c.cmdSetddram

/-- A flag as a byte holding it in bit 0. -/
def bitByte (b : Bool) : Byte := if b then 1#8 else 0#8

/-- R86: `0000 01 ID S`. -/
def entryByte (id sh : Bool) : Byte := 0x04#8 ||| (bitByte id <<< 1) ||| bitByte sh

/-- R87: `0000 1 D C B`. -/
def dispctlByte (d c b : Bool) : Byte := 0x08#8 ||| (bitByte d <<< 2) ||| (bitByte c <<< 1) ||| bitByte b

/-- R88: `001 DL N F 00`. -/
def funcsetByte (dl n f : Bool) : Byte := 0x20#8 ||| (bitByte dl <<< 4) ||| (bitByte n <<< 3) ||| (bitByte f <<< 2)

/-- R89: the command base plus a 7-bit display address. -/
def setddramByte (c : Config) (a : BitVec 7) : Byte := c.cmdSetddram + a.zeroExtend 8

/-- R122: `T_k`, the least duration of a delay class in microseconds. -/
def delayMicros (c : Config) : DelayClass → Nat
  | .wr => c.tWr
  | .eh => c.tEh
  | .el => c.tEl
  | .init => c.tInit

/-- R126: the cycles of a clocked implementation, `ceil(T_k × F_CLK)`; no value while `F_CLK` is open. -/
def delayCycles (c : Config) (k : DelayClass) : Option Nat :=
  c.fClk.map fun f => (delayMicros c k * f + 999999) / 1000000

end Sys2Proof.Machine
end

