-- ==== Sys2Proof/Machine/Flags.lean ====
section
/-! DEFINITION. Flags and status (10_state.md R28 to R34, 60_exceptions.md R201, R218, R219): numeric codes, the flag computed
from other state, the map from `ISTEP` to `FSM`, and the admission table. -/

namespace Sys2Proof.Machine

/-- R28: the code of `FSM`; 7 is never taken. -/
def Fsm.code : Fsm → BitVec 3
  | .poweredUnknown => 0#3
  | .bit4ModeRequested => 1#3
  | .functionSetApplied => 2#3
  | .displayOnCleared => 3#3
  | .entryModeSet => 4#3
  | .ready => 5#3
  | .initFailed => 6#3

/-- R201: the code in `RESULT`; 6 and 7 are never produced. -/
def ResultCode.code : ResultCode → BitVec 3
  | .ok => 0#3
  | .ioError => 1#3
  | .initError => 2#3
  | .badState => 3#3
  | .badRow => 4#3
  | .badOp => 5#3

/-- R201: whether `FAILIDX` is meaningful with the code. -/
def ResultCode.hasFailIdx : ResultCode → Bool
  | .ioError | .initError => true
  | .ok | .badState | .badRow | .badOp => false

/-- R30: `READY` is not separate state. -/
def State.readyFlag (s : State) : Bool := s.fsm == .ready

/-- R29: the named state as a function of `ISTEP`. -/
def Fsm.ofStep (n : Fin 10) : Fsm :=
  match n.val with
  | 0 => .poweredUnknown
  | 1 | 2 | 3 | 4 => .bit4ModeRequested
  | 5 | 6 => .functionSetApplied
  | 7 => .displayOnCleared
  | 8 => .entryModeSet
  | _ => .ready

/-- R218: the four modes. -/
inductive Mode where
  | uninitialised
  | initialising
  | ready
  | failed
  deriving DecidableEq, Repr

/-- R218: the mode, values of `FSM` grouped; INIT running is the initialising mode, from its acceptance to its result. -/
def State.mode (s : State) : Mode :=
  if s.busy && s.running == some .init then .initialising
  else
    match s.fsm with
    | .poweredUnknown => .uninitialised
    | .ready => .ready
    | .initFailed => .failed
    | .bit4ModeRequested | .functionSetApplied | .displayOnCleared | .entryModeSet => .initialising

/-- R219: which request is admitted in which state. -/
def Fsm.admits : Fsm → Job → Bool
  | .poweredUnknown, .init => true
  | .ready, .clear => true
  | .ready, .wrstr => true
  | _, _ => false

/-- R203: the code of a failed bus write, by the phase it happened in. -/
def failCode (running : Option Job) : ResultCode :=
  if running = some .init then .initError else .ioError

/-- R203: what a failed bus write leaves in `FSM`. -/
def failFsm (running : Option Job) (f : Fsm) : Fsm :=
  if running = some .init then .initFailed else f

end Sys2Proof.Machine
end

