-- ==== Sys2Proof/Machine/Ops.lean ====
section
/-! DEFINITION. The operations every meaning is made of: the `TXT` memory, the primitives of 00_scope.md R9, acceptance and
refusal of a request, the abort of a failed bus write (the block's one exception, 60_exceptions.md R203; there is no return
from it, R214), the end of a request, and reset (70_reset_and_hazards.md R240). -/

namespace Sys2Proof.Machine

/-- What one step or one meaning answers. -/
abbrev Answer := Host.Outcome State Fault Refusal

/-- The canonical form: strictly rising addresses (an unlisted address reads as no value, so no entry equals it). -/
abbrev Memory.wf (m : Memory) : Prop := m.Pairwise fun a b => a.1 < b.1

/-- The byte at an address, `none` where the space has no such location. -/
def Memory.read : Memory → Nat → Option Byte
  | [], _ => none
  | c :: m, a => if c.1 = a then some c.2 else Memory.read m a

/-- The bytes of a list at consecutive addresses from `a` on. -/
def Memory.ofBytesFrom : Nat → List Byte → Memory
  | _, [] => []
  | a, b :: bs => (a, b) :: Memory.ofBytesFrom (a + 1) bs

/-- R54: the `TXT` space of a text, byte 0 at index 0. -/
def Memory.ofBytes (bs : List Byte) : Memory := Memory.ofBytesFrom 0 bs

/-- The number of locations. -/
def Memory.size (m : Memory) : Nat := m.length

/-- R9: `emit e`. -/
def emit (e : Event) (s : State) : State := { s with trace := s.trace ++ [e] }

/-- Puts tasks before everything the sequencer still has to do: an operation is replaced by its expansion (R100). -/
def push (ts : List Task) (s : State) : State := { s with todo := ts ++ s.todo }

/-- R11, R33: an outcome code goes to `RESULT`, and the result to the requester. -/
def giveResult (code : ResultCode) (s : State) : State :=
  { s with result := { s.result with code := code }, results := s.results ++ [{ s.result with code := code }] }

/-- R206: `refuse <Reason>`. -/
def refuse (code : ResultCode) (s : State) : State := giveResult code s

/-- R186, R160, R181: a request is accepted; its expansion starts at `upc = 0` (R26), with no bus write done (R127). -/
def accept (job : Job) (prog : List Task) (s : State) : State :=
  { s with busy := true, running := some job, upc := 0, nwr := 0, todo := prog }

/-- The end of the running request, of either kind: nothing is left to do, `BUSY <- 0`. -/
def release (s : State) : State := { s with busy := false, running := none, todo := [] }

/-- R27: "When `upc = |E|` the request ends with result `OK`". -/
def complete (s : State) : State := release (giveResult .ok s)

/-- R203: `raise IoFail(i)`, the abort. `upc`, `ISTEP`, `IDX`, `CMD`, `RS`, `NIB` keep their values. -/
def raiseIoFail (i : Nat) (s : State) : State :=
  release (giveResult (failCode s.running)
    { s with fsm := failFsm s.running s.fsm, result := { s.result with failIdx := i } })

/-- R52: the transport's answer to the bus write now made: the next one listed, or a free value where none is listed. -/
def takeReply (s : State) : Option Reply × State :=
  match s.replies with
  | [] => (some (Config.freeReply s.draws), { s with draws := s.draws + 1 })
  | r :: rs => (r, { s with replies := rs })

/-- R36, R52, R120: a bus write answered `ok`. -/
def writeOk (b : Byte) (s : State) : State :=
  emit (.wr b .ok) { s with pins := b, nwr := s.nwr + 1, upc := s.upc + 1 }

/-- R121: a bus write answered `fail`: the event is in the trace, the pins hold a free value (R36), the request is aborted. -/
def writeFail (b : Byte) (s : State) : State :=
  raiseIoFail s.nwr (emit (.wr b .fail) { s with pins := Config.freeByte s.draws, draws := s.draws + 1 })

/-- The end of a bus write whose answer is known. -/
def settleWrite (b : Byte) (r : Reply) (s : State) : State :=
  match r with
  | .ok => writeOk b s
  | .fail => writeFail b s

/-- R52, R120: `MemWrite(BUS, 1, b)` and what follows from its answer. A write that is never answered has no step (R226). -/
def busWrite (b : Byte) (s : State) : Answer :=
  match takeReply s with
  | (some r, t) => .next (settleWrite b r t)
  | (none, _) => .fault .transportHang

/-- R123: `Delay(k)`. -/
def delay (k : DelayClass) (s : State) : State := emit (.wait k) { s with upc := s.upc + 1 }

/-- R160: `ISTEP <- n` and the named state that belongs to it (R29). -/
def setInitStep (n : Fin 10) (s : State) : State := { s with istep := n, fsm := Fsm.ofStep n }

/-- R240, R241: reset. The working registers become unspecified: free values. The pins, the trace, the inputs and the
parameters are untouched, and no result is returned for a request it cuts short. -/
def applyReset (s : State) : State :=
  { s with
    fsm := .poweredUnknown, istep := 0, bl := true, busy := false, upc := 0, result := ⟨.ok, 0⟩
    running := none, todo := [], nwr := 0
    cmd := Config.freeByte s.draws, rs := Config.freeBit (s.draws + 1), nib := Config.freeByte (s.draws + 2)
    row := Config.freeByte (s.draws + 3), col := Config.freeByte (s.draws + 4), addr := Config.freeByte (s.draws + 5)
    idx := Config.freeNat (s.draws + 6), len := Config.freeNat (s.draws + 7), draws := s.draws + 8 }

end Sys2Proof.Machine
end

