-- ==== Sys2Proof/Machine/Commands.lean ====
section
/-! DEFINITION. The command and data bytes the block emits (30_encoding.md R83 to R90): each is its byte sent whole, with
`RS = 0` for a command and `RS = 1` for data. -/

namespace Sys2Proof.Machine

/-- A byte sent by SENDBYTE (R83: commands "with `RS = 0`", "data bytes with `RS = 1`"). -/
def sendWhole (b : Byte) (rs : Bool) (s : State) : Answer := .next (push [.op (.sendbyte b rs)] s)

/-- R84: clear display. -/
def execCmdClear (s : State) : Answer := sendWhole s.cfg.cmdClear false s

/-- R85: return home. -/
def execCmdHome (s : State) : Answer := sendWhole s.cfg.cmdHome false s

/-- R86: entry mode set. -/
def execCmdEntry (id sh : Bool) (s : State) : Answer := sendWhole (entryByte id sh) false s

/-- R87: display control. -/
def execCmdDispctl (d c b : Bool) (s : State) : Answer := sendWhole (dispctlByte d c b) false s

/-- R88: function set. -/
def execCmdFuncset (dl n f : Bool) (s : State) : Answer := sendWhole (funcsetByte dl n f) false s

/-- R89: set DDRAM address. -/
def execCmdSetddram (a : BitVec 7) (s : State) : Answer := sendWhole (setddramByte s.cfg a) false s

/-- R90: a data byte. -/
def execData (b : Byte) (s : State) : Answer := sendWhole b true s

end Sys2Proof.Machine
end

