-- ==== Sys2Proof/Machine/Display.lean ====
section
/-! DEFINITION. The display operations (43_display_operations.md): CLEAR, WRSTR, SETADDR, WRDATA. -/

namespace Sys2Proof.Machine

/-- R181: clear display, then return home. -/
def clearProgram (c : Config) : List Task := [.op (.sendbyte c.cmdClear false), .op (.sendbyte c.cmdHome false)]

/-- R180, R181, R211: `CLEAR`. -/
def execClear (s : State) : Answer :=
  if s.busy then .next s
  else if s.fsm.admits .clear then .next (accept .clear (clearProgram s.cfg) s)
  else .next (refuse .badState s)

/-- R186: the address, then the loop over the text. -/
def wrstrProgram (row col : Byte) : List Task := [.op (.setaddr row col), .textLoop]

/-- R180, R186, R189, R211: `WRSTR text, row, col`, its text in the `TXT` space. A row with no base is refused with `BadRow`
unless `ROW_OOR_POLICY` gives it an address. -/
def execWrstr (row col : Byte) (s : State) : Answer :=
  if s.busy then .next s
  else if s.fsm.admits .wrstr then
    match addrByte s.cfg row col with
    | none => .next (refuse .badRow s)
    | some _ =>
      .next (accept .wrstr (wrstrProgram row col) { s with row := row, col := col, len := Memory.size s.txt, idx := 0 })
  else .next (refuse .badState s)

/-- R183: `SETADDR row, col`. The row is checked before WRSTR starts; a row with no base, given to SETADDR alone, gets what
`ROW_OOR_POLICY` says of it (R6, R189). -/
def execSetaddr (row col : Byte) (s : State) : Answer :=
  match addrByte s.cfg row col with
  | none => .next (refuse .badRow s)
  | some a => .next (push [.op (.sendbyte a false)] { s with addr := a })

/-- R185: `WRDATA b`. -/
def execWrdata (b : Byte) (s : State) : Answer := .next (push [.op (.sendbyte b true)] s)

end Sys2Proof.Machine
end

