-- ==== Sys2Proof/Machine/Encoder.lean ====
section
/-! DEFINITION. The protocol encoder (41_protocol_encoder.md): STROBE, BOOTNIB, SENDBYTE. Each writes the registers its entry
writes and is replaced by its expansion (R140), which the sequencer then runs. -/

namespace Sys2Proof.Machine

/-- R141: the six primitives of a strobe whose nibble byte is in `NIB`. -/
def strobeTasks (c : Config) (bl : Bool) (nib : Byte) : List Task :=
  [.op (.buswr (wireHigh c bl nib)), .op (.wait .wr), .op (.wait .eh),
    .op (.buswr (wireLow c bl nib)), .op (.wait .wr), .op (.wait .el)]

/-- R141: `STROBE n`. -/
def execStrobe (n : Byte) (s : State) : Answer := .next (push (strobeTasks s.cfg s.bl n) { s with nib := n })

/-- R145 and `BOOT_FORM` (92_eei_decisions.md D5): how a bootstrap nibble reaches the bus. -/
def bootTasks (c : Config) (v : Nibble) : List Task :=
  match c.bootForm with
  | .strobedNibble => [.op (.strobe (bootNibble v))]
  | .fullByte => [.op (.sendbyte (v.zeroExtend 8) false)]
  | .rawWrite => [.op (.buswr (v.zeroExtend 8)), .op (.wait .wr)]

/-- R145: `BOOTNIB v`. -/
def execBootnib (v : Nibble) (s : State) : Answer := .next (push (bootTasks s.cfg v) s)

/-- R146, R147: the two strobes of a byte, high nibble first. -/
def sendTasks (c : Config) (b : Byte) (rs : Bool) : List Task :=
  [.op (.strobe (hiNibble c b rs)), .op (.strobe (loNibble c b rs))]

/-- R146: `SENDBYTE c, rs`. -/
def execSendbyte (b : Byte) (rs : Bool) (s : State) : Answer :=
  .next (push (sendTasks s.cfg b rs) { s with cmd := b, rs := rs })

end Sys2Proof.Machine
end

