-- ==== Sys2Proof/Machine/Init.lean ====
section
/-! DEFINITION. INIT (42_initialization.md). -/

namespace Sys2Proof.Machine

/-- R160, R161: the nine steps in order, each followed by the assignment of `ISTEP` and `FSM` that stands beside it. -/
def initProgram (c : Config) : List Task :=
  [.op (.bootnib c.bootNib8), .initStep 1,
    .op (.bootnib c.bootNib8), .initStep 2,
    .op (.bootnib c.bootNib8), .initStep 3,
    .op (.bootnib c.bootNib4), .initStep 4,
    .op (.sendbyte c.cmdFuncset false), .initStep 5,
    .op (.sendbyte c.cmdDispctl false), .initStep 6,
    .op (.sendbyte c.cmdClear false), .initStep 7,
    .op (.sendbyte c.cmdEntry false), .initStep 8,
    .op (.wait .init), .initStep 9]

/-- R160, R211: `INIT`. Presented while `BUSY = 1` it is not accepted and has no effect (R65). -/
def execInit (s : State) : Answer :=
  if s.busy then .next s
  else if s.fsm.admits .init then .next (accept .init (initProgram s.cfg) { s with istep := 0 })
  else .next (refuse .badState s)

end Sys2Proof.Machine
end

