-- ==== Sys2Proof/Machine/Primitives.lean ====
section
/-! DEFINITION. The primitives BUSWR and WAIT (40_bus_and_timing.md R120 to R126). -/

namespace Sys2Proof.Machine

/-- R120, R121: `BUSWR b`. -/
def execBuswr (b : Byte) (s : State) : Answer := busWrite b s

/-- R123: `WAIT k`. -/
def execWait (k : DelayClass) (s : State) : Answer := .next (delay k s)

end Sys2Proof.Machine
end

