-- ==== Sys2Proof/Machine/Wire.lean ====
section
/-! DEFINITION. The two wire phases of a strobe taken alone (30_encoding.md R94): each is one bus write of its wire byte. The
delays of a strobe are primitives of STROBE (R141), not of its phases. -/

namespace Sys2Proof.Machine

/-- R94: the enable-high byte of the nibble byte with data `d` and flag `r`. -/
def execEh (d : Nibble) (r : Bool) (s : State) : Answer := busWrite (wireHigh s.cfg s.bl (nibbleOf s.cfg d r)) s

/-- R94: the enable-low byte of the nibble byte with data `d` and flag `r`. -/
def execEl (d : Nibble) (r : Bool) (s : State) : Answer := busWrite (wireLow s.cfg s.bl (nibbleOf s.cfg d r)) s

end Sys2Proof.Machine
end

