-- ==== Sys2Proof/Machine/Dispatch.lean ====
section
/-! DEFINITION. The dispatcher: one arm for each operation of spec/opcode_table.json. -/

open Sys2Proof
namespace Sys2Proof.Machine

def exec (i : Instr) (s : State) : Host.Outcome State Fault Refusal :=
  match i with
  | .init => Sys2Proof.Machine.execInit s
  | .clear => Sys2Proof.Machine.execClear s
  | .wrstr row col => Sys2Proof.Machine.execWrstr row col s
  | .setaddr row col => Sys2Proof.Machine.execSetaddr row col s
  | .wrdata b => Sys2Proof.Machine.execWrdata b s
  | .sendbyte c rs => Sys2Proof.Machine.execSendbyte c rs s
  | .bootnib v => Sys2Proof.Machine.execBootnib v s
  | .strobe n => Sys2Proof.Machine.execStrobe n s
  | .buswr b => Sys2Proof.Machine.execBuswr b s
  | .wait k => Sys2Proof.Machine.execWait k s
  | .eh d r => Sys2Proof.Machine.execEh d r s
  | .el d r => Sys2Proof.Machine.execEl d r s
  | .cmdClear => Sys2Proof.Machine.execCmdClear s
  | .cmdHome => Sys2Proof.Machine.execCmdHome s
  | .cmdEntry id sh => Sys2Proof.Machine.execCmdEntry id sh s
  | .cmdDispctl d c b => Sys2Proof.Machine.execCmdDispctl d c b s
  | .cmdFuncset dl n f => Sys2Proof.Machine.execCmdFuncset dl n f s
  | .cmdSetddram a => Sys2Proof.Machine.execCmdSetddram a s
  | .data b => Sys2Proof.Machine.execData b s

end Sys2Proof.Machine
end

