-- ==== Sys2Proof/Machine/Sequencer.lean ====
section
/-! DEFINITION. How the block gets its next operation (10_state.md R26, R27; 20_memory.md R65; 60_exceptions.md R211): from the
sequencer while a request runs, from the request port while none does. -/

namespace Sys2Proof.Machine

/-- R207, R211 (2): the request word decoded, or the reserved `op`. -/
def decodePort (r : Request) : Option Instr := decode? .req r.word.toNat

/-- The head of the port is taken: its text is the `TXT` space from now on (R54 for WRSTR; for every other request the model's
choice, notes/assumptions/19.md). -/
def takeRequest (r : Request) (rest : List Request) (s : State) : State :=
  { s with requests := rest, txt := Memory.ofBytes r.text }

/-- The test `IDX < LEN` of WRSTR's loop and its body (R186), the text byte read by `MemRead(TXT + IDX, 1)` (R55). -/
def textLoopStep (rest : List Task) (s : State) : Answer :=
  if s.idx < s.len then
    match Memory.read s.txt s.idx with
    | some b => .next { s with todo := .op (.wrdata b) :: .textNext :: rest }
    | none => .fault .txtOutOfRange
  else .next { s with todo := rest }

/-- `IDX <- IDX + 1` (R186), then the test again. -/
def textNextStep (rest : List Task) (s : State) : Answer := .next { s with idx := s.idx + 1, todo := .textLoop :: rest }

/-- The first task of the sequencer, the rest after it; `run` is the dispatcher. -/
def taskStep (run : Instr → State → Answer) (t : Task) (rest : List Task) (s : State) : Answer :=
  match t with
  | .op i => run i { s with todo := rest }
  | .initStep n => .next (setInitStep n { s with todo := rest })
  | .textLoop => textLoopStep rest s
  | .textNext => textNextStep rest s

/-- The request port of an idle block: with nothing presented the block waits (R240); a reserved `op` is refused with `BadOp`
(R207). -/
def portStep (run : Instr → State → Answer) (s : State) : Answer :=
  match s.requests with
  | [] => .next s
  | r :: rest =>
    match decodePort r with
    | some i => run i (takeRequest r rest s)
    | none => .next (refuse .badOp (takeRequest r rest s))

/-- One step of the block with the reset line low. -/
def advance (run : Instr → State → Answer) (s : State) : Answer :=
  match s.todo with
  | t :: rest => taskStep run t rest s
  | [] => if s.busy then .next (complete s) else portStep run s

/-- One step: the reset line first (R240: "It may be applied at any time"; notes/assumptions/8.md), then the block. -/
def stepWith (run : Instr → State → Answer) (s : State) : Answer :=
  match s.resetIn with
  | true :: later => .next (applyReset { s with resetIn := later })
  | false :: later => advance run { s with resetIn := later }
  | [] => advance run s

/-- The block made to take this request at its next step: idle, the reset line low, the request at the port. -/
def placeRequest (r : Request) (s : State) : State :=
  { s with requests := r :: s.requests, todo := [], busy := false, running := none, resetIn := [] }

/-- The block made to run this internal operation at its next step: the reset line low, the operation in the sequencer. -/
def placeOp (i : Instr) (s : State) : State := { s with todo := [.op i], resetIn := [] }

/-- A table word placed where it is fetched: a request word at the port, with an empty text; any other operation in the
sequencer, since it cannot be presented at the port (R140). A reserved request word stands at the port too. -/
def placeTableWord (s : State) (nbits w : Nat) : State :=
  match decodeTableWord nbits w with
  | some i => if i.isRequest then placeRequest ⟨BitVec.ofNat 18 w, []⟩ s else placeOp i s
  | none => if tableClasses nbits w = [.req] ∧ w < 2 ^ 18 then placeRequest ⟨BitVec.ofNat 18 w, []⟩ s else s

end Sys2Proof.Machine
end

