-- ==== Sys2Proof/Machine/Step.lean ====
section
/-! DEFINITION. The step: a next state, a fault or a refusal. -/

namespace Sys2Proof.Machine

/-- One step of the machine. -/
def step (s : State) : Host.Outcome State Fault Refusal := stepWith exec s

/-- `s` with the table word `w` where the next step fetches it. -/
def State.withFetchWord (s : State) (nbits w : Nat) : State := placeTableWord s nbits w

/-- `n` steps, stopping at the first that answers no next state. -/
def steps : Nat → State → Host.Outcome State Fault Refusal
  | 0, s => .next s
  | n + 1, s =>
    match step s with
    | .next t => steps n t
    | .fault f => .fault f
    | .refused r => .refused r

end Sys2Proof.Machine
end

