-- ==== Sys2Proof/Machine/Expansion.lean ====
section
/-! DEFINITION. The expansions of 30_encoding.md R100, written as lists of primitives, and what running one does to the trace
(40_bus_and_timing.md R127): the spec's own description of the requests, beside the machine's step. -/

namespace Sys2Proof.Machine

/-- The two primitives (R26). -/
inductive Prim where
  | buswr (b : Byte)
  | wait (k : DelayClass)
  deriving DecidableEq, Repr

namespace Expand

/-- `X(STROBE n)`. -/
def strobe (c : Config) (bl : Bool) (n : Byte) : List Prim :=
  [.buswr (wireHigh c bl n), .wait .wr, .wait .eh, .buswr (wireLow c bl n), .wait .wr, .wait .el]

/-- `X(SENDBYTE b, rs)`. -/
def sendbyte (c : Config) (bl : Bool) (b : Byte) (rs : Bool) : List Prim :=
  strobe c bl (hiNibble c b rs) ++ strobe c bl (loNibble c b rs)

/-- `X(BOOTNIB v)` under each `BOOT_FORM` (92_eei_decisions.md D5). -/
def bootnib (c : Config) (bl : Bool) (v : Nibble) : List Prim :=
  match c.bootForm with
  | .strobedNibble => strobe c bl (bootNibble v)
  | .fullByte => sendbyte c bl (v.zeroExtend 8) false
  | .rawWrite => [.buswr (v.zeroExtend 8), .wait .wr]

/-- `X(SETADDR row, col)`; a refused row emits nothing. -/
def setaddr (c : Config) (bl : Bool) (row col : Byte) : List Prim :=
  match addrByte c row col with
  | some a => sendbyte c bl a false
  | none => []

/-- `X(INIT)`. -/
def init (c : Config) (bl : Bool) : List Prim :=
  bootnib c bl c.bootNib8 ++ bootnib c bl c.bootNib8 ++ bootnib c bl c.bootNib8 ++ bootnib c bl c.bootNib4 ++
    sendbyte c bl c.cmdFuncset false ++ sendbyte c bl c.cmdDispctl false ++ sendbyte c bl c.cmdClear false ++
    sendbyte c bl c.cmdEntry false ++ [.wait .init]

/-- `X(CLEAR)`. -/
def clear (c : Config) (bl : Bool) : List Prim := sendbyte c bl c.cmdClear false ++ sendbyte c bl c.cmdHome false

/-- `X(WRDATA t[0]) ++ ... ++ X(WRDATA t[LEN-1])`. -/
def text (c : Config) (bl : Bool) (t : List Byte) : List Prim := t.flatMap fun b => sendbyte c bl b true

/-- `X(WRSTR t, row, col)`. -/
def wrstr (c : Config) (bl : Bool) (row col : Byte) (t : List Byte) : List Prim := setaddr c bl row col ++ text c bl t

/-- `X(i)` for every operation; `t` is the text of WRSTR. -/
def instr (c : Config) (bl : Bool) (t : List Byte) : Instr → List Prim
  | .init => init c bl
  | .clear => clear c bl
  | .wrstr row col => wrstr c bl row col t
  | .setaddr row col => setaddr c bl row col
  | .wrdata b => sendbyte c bl b true
  | .sendbyte b rs => sendbyte c bl b rs
  | .bootnib v => bootnib c bl v
  | .strobe n => strobe c bl n
  | .buswr b => [.buswr b]
  | .wait k => [.wait k]
  | .eh d r => [.buswr (wireHigh c bl (nibbleOf c d r))]
  | .el d r => [.buswr (wireLow c bl (nibbleOf c d r))]
  | .cmdClear => sendbyte c bl c.cmdClear false
  | .cmdHome => sendbyte c bl c.cmdHome false
  | .cmdEntry id sh => sendbyte c bl (entryByte id sh) false
  | .cmdDispctl d k b => sendbyte c bl (dispctlByte d k b) false
  | .cmdFuncset dl n f => sendbyte c bl (funcsetByte dl n f) false
  | .cmdSetddram a => sendbyte c bl (setddramByte c a) false
  | .data b => sendbyte c bl b true

end Expand

/-- The byte of a bus write, `none` for a delay. -/
def Prim.byte? : Prim → Option Byte
  | .buswr b => some b
  | .wait _ => none

/-- The bus-write byte list of an expansion. -/
def writeBytes (e : List Prim) : List Byte := e.filterMap Prim.byte?

/-- R254: the least duration of an expansion in microseconds: the sum of its delays (R124: delays add). -/
def minMicros (c : Config) : List Prim → Nat
  | [] => 0
  | .buswr _ :: e => minMicros c e
  | .wait k :: e => delayMicros c k + minMicros c e

/-- How a run of an expansion ends (R127): `Done`, or `Failed(nwr)`. -/
inductive RunEnd where
  | done
  | failed (nwr : Nat)
  deriving DecidableEq, Repr

/-- R127: the events of `Run(E)` when the transport gives these answers. DESIGN CHOICE: a bus write that the list has no answer
for emits no event (notes/assumptions/26.md). -/
def runEvents : List Prim → List Reply → List Event
  | [], _ => []
  | .wait k :: e, rs => .wait k :: runEvents e rs
  | .buswr b :: e, .ok :: rs => .wr b .ok :: runEvents e rs
  | .buswr b :: _, .fail :: _ => [.wr b .fail]
  | .buswr _ :: _, [] => []

/-- R127: how `Run(E)` ends, `n` bus writes having succeeded before. DESIGN CHOICE: at a bus write that the list has no answer for,
where R127 gives no end and R226 says that there is none, the value is `failed n`, which stands for no failure
(notes/assumptions/26.md). -/
def runEnd : List Prim → List Reply → Nat → RunEnd
  | [], _, _ => .done
  | .wait _ :: e, rs, n => runEnd e rs n
  | .buswr _ :: e, .ok :: rs, n => runEnd e rs (n + 1)
  | .buswr _ :: _, .fail :: _, n => .failed n
  | .buswr _ :: _, [], n => .failed n

/-- R127: "With a transport that always answers `ok` the trace is exactly `E`". -/
def Prim.okEvent : Prim → Event
  | .buswr b => .wr b .ok
  | .wait k => .wait k

end Sys2Proof.Machine
end

