-- ==== Sys2Proof/Machine/Trace.lean ====
section
/-! DEFINITION. What can be read from the trace alone (20_memory.md R70, R71; 30_encoding.md R103): the nibbles the controller
latches, the bytes it pairs them into, and the nibble bytes of complete strobes. No step uses any of it. -/

namespace Sys2Proof.Machine

/-- The bus writes of a trace, in order (R10). -/
def busWrites : List Event → List (Byte × Reply)
  | [] => []
  | .wr b r :: es => (b, r) :: busWrites es
  | .wait _ :: es => busWrites es

/-- R70: a falling enable edge between two consecutive successful bus writes latches `(rs, n)`. -/
def latchedPair (c : Config) (p q : Byte × Reply) : List (Bool × Nibble) :=
  if p.2 = .ok ∧ q.2 = .ok ∧ p.1 &&& c.enBit ≠ 0#8 ∧ q.1 &&& c.enBit = 0#8 then
    [(q.1 &&& c.rsBit != 0#8, q.1.extractLsb' 4 4)]
  else []

/-- R70 on a list of bus writes. -/
def latchedOf (c : Config) : List (Byte × Reply) → List (Bool × Nibble)
  | [] => []
  | [_] => []
  | p :: q :: ws => latchedPair c p q ++ latchedOf c (q :: ws)

/-- R70: `Latched(trace)`. -/
def latched (c : Config) (trace : List Event) : List (Bool × Nibble) := latchedOf c (busWrites trace)

/-- R71: latched nibbles in pairs, high nibble first, as bytes with their register select. A claim about what the controller
received takes as a premise that it was in 4-bit mode and in step (R248). -/
def pairNibbles : List (Bool × Nibble) → List (Bool × Byte)
  | h :: l :: ns => (h.1, h.2 ++ l.2) :: pairNibbles ns
  | _ => []

/-- R103: the nibble bytes of a list of complete strobe cycles: `n = EL(n) & ~BLM`. -/
def nibbleBytes (c : Config) (bl : Bool) : List Byte → List Byte
  | _ :: q :: ws => (q &&& ~~~blm c bl) :: nibbleBytes c bl ws
  | _ => []

/-- R254: the least time a trace takes, in microseconds. -/
def traceMicros (c : Config) : List Event → Nat
  | [] => 0
  | .wr _ _ :: es => traceMicros c es
  | .wait k :: es => delayMicros c k + traceMicros c es

end Sys2Proof.Machine
end

