-- ==== Sys2Proof/Safety.lean ====
section
/-! DEFINITION. What counts as a safe state and a safe trace, in the terms the statements use: the invariant of the machine,
the part of the running request's expansion that is still to run, and the legal wire byte. -/

namespace Sys2Proof.Machine

/-- The text bytes from an index up to `LEN`. -/
def textFrom (s : State) (i : Nat) : List Byte := (List.range' i (s.len - i)).filterMap (Memory.read s.txt)

/-- The primitives a task stands for. -/
def taskPrims (s : State) : Task → List Prim
  | .op i => Expand.instr s.cfg s.bl [] i
  | .initStep _ => []
  | .textLoop => Expand.text s.cfg s.bl (textFrom s s.idx)
  | .textNext => Expand.text s.cfg s.bl (textFrom s (s.idx + 1))

/-- The primitives still to run. -/
def remaining (s : State) : List Prim := s.todo.flatMap (taskPrims s)

/-- `E`, the expansion of the running request (R26, R100). -/
def expansion (s : State) : List Prim :=
  match s.running with
  | none => []
  | some .init => Expand.init s.cfg s.bl
  | some .clear => Expand.clear s.cfg s.bl
  | some .wrstr => Expand.wrstr s.cfg s.bl s.row s.col (textFrom s 0)

/-- An operation that is no request, and no SETADDR of a row that is refused (R189: such a WRSTR never starts). -/
def Task.isInner (c : Config) : Task → Bool
  | .op (.setaddr row col) => (addrByte c row col).isSome
  | .op i => !i.isRequest
  | .initStep _ | .textLoop | .textNext => false

/-- What a running INIT still has to do: the operations left of the step after `ISTEP`, then the steps after it. -/
def initShape (s : State) : Prop :=
  s.fsm = Fsm.ofStep s.istep ∧
    ((s.todo = (initProgram s.cfg).drop (2 * s.istep.val)) ∨
      (s.istep.val < 9 ∧ ∃ front, (∀ t ∈ front, t.isInner s.cfg = true) ∧
        s.todo = front ++ (initProgram s.cfg).drop (2 * s.istep.val + 1)))

/-- What a running WRSTR still has to do: the operations left of the address or of a character, then the loop. -/
def wrstrShape (s : State) : Prop :=
  s.fsm = .ready ∧ s.istep = 9 ∧ (∃ bs, s.txt = Memory.ofBytes bs ∧ s.len = bs.length) ∧ s.idx ≤ s.len ∧
    ∃ front, (∀ t ∈ front, t.isInner s.cfg = true) ∧
      (s.todo = front ++ [.textLoop] ∨ (s.idx < s.len ∧ s.todo = front ++ [.textNext]) ∨
        (s.todo = [] ∧ s.idx = s.len))

/-- The shape of the sequencer in each phase of the block (R218, R219). -/
def phaseShape (s : State) : Prop :=
  match s.running with
  | none => s.todo = [] ∧ ((s.fsm = .poweredUnknown ∧ s.istep = 0) ∨ (s.fsm = .ready ∧ s.istep = 9) ∨
      (s.fsm = .initFailed ∧ s.istep.val < 9))
  | some .init => initShape s
  | some .clear => s.fsm = .ready ∧ s.istep = 9 ∧ ∀ t ∈ s.todo, t.isInner s.cfg = true
  | some .wrstr => wrstrShape s

/-- The invariant: the parameters meet R7, the backlight latch is on (R31), `BUSY` is 1 exactly while a request runs (R32), the
`TXT` memory is in its canonical form, what is left of the running request is `E` from `upc` on (R26), and the sequencer has
the shape of its phase. -/
structure SafeState (s : State) : Prop where
  cfgOk : s.cfg.wf
  backlight : s.bl = true
  busyRuns : s.busy = s.running.isSome
  textForm : Memory.wf s.txt
  upcBound : s.busy = true → s.upc ≤ (expansion s).length
  position : s.busy = true → remaining s = (expansion s).drop s.upc
  shape : phaseShape s

/-- R144: a wire byte with the backlight bit set and the `RW` bit clear. -/
def wireLegal (c : Config) (b : Byte) : Prop := b &&& c.blBit = c.blBit ∧ b &&& c.rwBit = 0#8

/-- Every bus write of a trace is a legal wire byte. -/
def traceLegal (c : Config) (trace : List Event) : Prop := ∀ w ∈ busWrites trace, wireLegal c w.1

/-- The transport answers every bus write it is given (R255: what termination rests on), and no reset is applied. -/
def answering (s : State) : Prop := s.resetIn = [] ∧ ∀ r ∈ s.replies, r ≠ none

/-- The next `n` bus writes are answered `ok`, and the answers after them are `rest`. -/
def answersOk (s : State) (n : Nat) (rest : List (Option Reply)) : Prop := s.replies = List.replicate n (some .ok) ++ rest

/-- Idle with the reset line low: the next step looks at the request port. -/
def idle (s : State) : Prop := s.busy = false ∧ s.todo = [] ∧ s.resetIn = []

/-- What a request or an operation leaves as it was, whatever it does: the parameters, the backlight latch, every location of
the `TXT` space, and the environment's inputs other than the transport's answers. -/
def sameOutside (s t : State) : Prop :=
  t.cfg = s.cfg ∧ t.bl = s.bl ∧ (∀ a, Memory.read t.txt a = Memory.read s.txt a) ∧ t.requests = s.requests ∧
    t.resetIn = s.resetIn

/-- The registers and flags that only the acceptance, the steps and the end of a request write (R28, R29, R32, R33). -/
def sameControl (s t : State) : Prop :=
  t.fsm = s.fsm ∧ t.istep = s.istep ∧ t.busy = s.busy ∧ t.running = s.running ∧ t.result = s.result ∧ t.results = s.results

/-- The registers of WRSTR and SETADDR. -/
def samePosition (s t : State) : Prop :=
  t.row = s.row ∧ t.col = s.col ∧ t.addr = s.addr ∧ t.idx = s.idx ∧ t.len = s.len

/-- The bus and everything a primitive moves: pins, trace, the transport's answers, the position in the expansion. -/
def sameBus (s t : State) : Prop :=
  t.pins = s.pins ∧ t.trace = s.trace ∧ t.replies = s.replies ∧ t.upc = s.upc ∧ t.nwr = s.nwr ∧ t.draws = s.draws

end Sys2Proof.Machine
end

