-- ==== Sys2Proof/Certificates/Slice0/Obligations.lean ====
section
/-! DEFINITION. The statements for the provers. Each docstring names the rule of spec/ the statement rests on. -/

open Sys2Proof Sys2Proof.Machine

/-! ### Encodings -/

/-- Decoding the word of a well-formed operation in its class gives the operation back, every operand at every value. -/
def Obligations.DecodeOfEncode : Prop :=
  ∀ i : Instr, i.wf = true → decode i.wordClass (encode i) = .ok i

/-- What the decoder accepts is well formed and of the class asked for, and the word is the one the encoder writes, but for the
bits that are ignored: the row and column fields of INIT and CLEAR (R97), and the two low bits of function set, which R83
writes as 00 and spec/opcode_table.json calls no part of the command class (its mask is `0xE0`; notes/assumptions/15.md). -/
def Obligations.DecodeAcceptsOnlyItsOwnWords : Prop :=
  ∀ k w i, decode k w = .ok i →
    i.wf = true ∧ i.wordClass = k ∧ w < 2 ^ k.width ∧
      (if i = .init ∨ i = .clear then encode i = w / 2 ^ 16 * 2 ^ 16
       else if ∃ l n f, i = .cmdFuncset l n f then encode i = w / 4 * 4
       else encode i = w)

/-- R97, R101 (a): the request word by its `op` field; the row and column fields of INIT and CLEAR are ignored, and `op = 3` is
rejected as reserved. -/
def Obligations.RequestWordReadsOpRowCol : Prop :=
  ∀ op row col : Nat, op < 4 → row < 256 → col < 256 →
    decode .req (op * 2 ^ 16 + row * 2 ^ 8 + col) =
      (if op = 0 then .ok .init
       else if op = 1 then .ok .clear
       else if op = 2 then .ok (.wrstr (BitVec.ofNat 8 row) (BitVec.ofNat 8 col))
       else .error .reservedOp)

/-- Sanity: at least one word of each of the eleven classes, written out from the spec's encodings (R80 to R94, R97, R99),
decodes to the operation it stands for. -/
def Obligations.TableWordsDecode : Prop :=
  decode .req 0b10_00000001_00000101 = .ok (.wrstr 1#8 5#8) ∧
  decode .int16 0b00000011_00101011 = .ok (.setaddr 3#8 0x2B#8) ∧
  decode .int9 0b1_10100101 = .ok (.sendbyte 0xA5#8 true) ∧
  decode .int8 0b01001000 = .ok (.wrdata 0x48#8) ∧
  decode .boot 0b0010 = .ok (.bootnib 0x2#4) ∧
  decode .wire 0b0011_1100 = .ok (.buswr 0x3C#8) ∧
  decode .data 0b11000011 = .ok (.data 0xC3#8) ∧
  decode .nibble 0b1010_0001 = .ok (.strobe 0xA1#8) ∧
  decode .nibble 0b1010_0101 = .error .notNibbleByte ∧
  decode .phase 0b0011_1100 = .ok (.eh 0x3#4 false) ∧
  decode .phase 0b0011_1001 = .ok (.el 0x3#4 true) ∧
  decode .cmd 0b0000_0110 = .ok (.cmdEntry true false) ∧
  decode .cmd 0b0000_1100 = .ok (.cmdDispctl true false false) ∧
  decode .cmd 0b0010_1000 = .ok (.cmdFuncset false true false) ∧
  decode .cmd 0b1100_0000 = .ok (.cmdSetddram 0x40#7) ∧
  decode .wsel 0b10 = .ok (.wait .el)

/-! ### Reset and the codes -/

/-- R39, R240: the values the spec gives for reset. -/
def Obligations.ResetStateHoldsTheSpecValues : Prop :=
  State.reset.fsm = .poweredUnknown ∧ State.reset.istep = 0 ∧ State.reset.bl = true ∧ State.reset.busy = false ∧
    State.reset.upc = 0 ∧ State.reset.result = ⟨.ok, 0⟩ ∧ State.reset.trace = [] ∧ State.reset.cfg = Config.default

/-- R240, R241: the reset line, at any time: the listed state takes its reset value, a running request is cut short without a
result, and nothing is emitted; pins, parameters and inputs stay. The working registers are free and not spoken of. -/
def Obligations.ResetLineTakesEffectAnywhere : Prop :=
  ∀ s later, s.resetIn = true :: later →
    ∃ t, step s = .next t ∧ t.fsm = .poweredUnknown ∧ t.istep = 0 ∧ t.bl = true ∧ t.busy = false ∧ t.upc = 0 ∧
      t.result = ⟨.ok, 0⟩ ∧ t.running = none ∧ t.todo = [] ∧ t.trace = s.trace ∧ t.results = s.results ∧
      t.pins = s.pins ∧ t.cfg = s.cfg ∧ t.txt = s.txt ∧ t.requests = s.requests ∧ t.replies = s.replies ∧
      t.resetIn = later

/-- R28, R29, R201: the codes of `FSM`, of which 7 is never taken, and of `RESULT`, of which 6 and 7 are never produced, with
whether `FAILIDX` is meaningful; the named state as a function of `ISTEP`. -/
def Obligations.StateAndResultCodes : Prop :=
  (Fsm.code .poweredUnknown = 0#3 ∧ Fsm.code .bit4ModeRequested = 1#3 ∧ Fsm.code .functionSetApplied = 2#3 ∧
    Fsm.code .displayOnCleared = 3#3 ∧ Fsm.code .entryModeSet = 4#3 ∧ Fsm.code .ready = 5#3 ∧ Fsm.code .initFailed = 6#3 ∧
    ∀ f : Fsm, f.code ≠ 7#3) ∧
  (ResultCode.code .ok = 0#3 ∧ ResultCode.code .ioError = 1#3 ∧ ResultCode.code .initError = 2#3 ∧
    ResultCode.code .badState = 3#3 ∧ ResultCode.code .badRow = 4#3 ∧ ResultCode.code .badOp = 5#3 ∧
    ∀ r : ResultCode, r.code ≠ 6#3 ∧ r.code ≠ 7#3 ∧ (r.hasFailIdx = true ↔ r = .ioError ∨ r = .initError)) ∧
  (∀ n : Fin 10,
    (n.val = 0 → Fsm.ofStep n = .poweredUnknown) ∧ (1 ≤ n.val ∧ n.val ≤ 4 → Fsm.ofStep n = .bit4ModeRequested) ∧
    (n.val = 5 ∨ n.val = 6 → Fsm.ofStep n = .functionSetApplied) ∧ (n.val = 7 → Fsm.ofStep n = .displayOnCleared) ∧
    (n.val = 8 → Fsm.ofStep n = .entryModeSet) ∧ (n.val = 9 → Fsm.ofStep n = .ready))

/-! ### The step -/

/-- A step runs the decoded request of an idle block (R65, R97, R211), and the operation at the head of the sequencer of any
other (R26). R54 makes the text of a WRSTR the `TXT` space; that the text beside any request taken becomes it, also of INIT, of
CLEAR and of a request that is then refused, where nothing reads it, is the model's choice (notes/assumptions/19.md). -/
def Obligations.StepRunsTheFetchedOperation : Prop :=
  (∀ s r rest i, idle s → s.requests = r :: rest → decode .req r.word.toNat = .ok i →
    step s = exec i { s with requests := rest, txt := Memory.ofBytes r.text }) ∧
  (∀ s i rest, s.resetIn = [] → s.todo = .op i :: rest → step s = exec i { s with todo := rest })

/-- R27, R160, R186, R240: the steps of the sequencer between operations: the assignment beside a step of INIT, WRSTR's loop,
the end of a request, which happens when nothing of its expansion is left, and the waiting of an idle block. That `FAILIDX`
keeps its value at an `OK` is the model's choice (notes/assumptions/13.md). -/
def Obligations.StepsBetweenOperations : Prop :=
  (∀ s n rest, s.resetIn = [] → s.todo = .initStep n :: rest →
    step s = .next { s with todo := rest, istep := n, fsm := Fsm.ofStep n }) ∧
  (∀ s rest, s.resetIn = [] → s.todo = .textLoop :: rest → ¬ s.idx < s.len → step s = .next { s with todo := rest }) ∧
  (∀ s rest b, s.resetIn = [] → s.todo = .textLoop :: rest → s.idx < s.len → Memory.read s.txt s.idx = some b →
    step s = .next { s with todo := .op (.wrdata b) :: .textNext :: rest }) ∧
  (∀ s rest, s.resetIn = [] → s.todo = .textNext :: rest →
    step s = .next { s with todo := .textLoop :: rest, idx := s.idx + 1 }) ∧
  (∀ s, s.resetIn = [] → s.todo = [] → s.busy = true →
    step s = .next { s with busy := false, running := none, result := ⟨.ok, s.result.failIdx⟩,
                            results := s.results ++ [⟨.ok, s.result.failIdx⟩] }) ∧
  (∀ s, idle s → s.requests = [] → step s = .next s)

/-! ### The primitives -/

/-- R52, R120: a bus write answered `ok`, with its whole frame. -/
def Obligations.BuswrAnsweredOk : Prop :=
  ∀ b s rest, s.replies = some .ok :: rest →
    exec (.buswr b) s = .next { s with replies := rest, pins := b, nwr := s.nwr + 1, upc := s.upc + 1,
                                       trace := s.trace ++ [.wr b .ok] }

/-- R203: a bus write answered `fail` aborts: the event is in the trace, `FAILIDX` is the number of the failed write, the code and
`FSM` tell INIT from the rest, `BUSY` is 0, nothing of the request is left to run; everything else is as it was, the pins
(any value, R36) apart. -/
def Obligations.BuswrAnsweredFailAborts : Prop :=
  ∀ b s rest, s.replies = some .fail :: rest →
    ∃ p code, code = (if s.running = some .init then ResultCode.initError else ResultCode.ioError) ∧
      exec (.buswr b) s = .next { s with
        replies := rest, trace := s.trace ++ [.wr b .fail], pins := p, draws := s.draws + 1
        result := ⟨code, s.nwr⟩, results := s.results ++ [⟨code, s.nwr⟩]
        fsm := (if s.running = some .init then Fsm.initFailed else s.fsm)
        busy := false, running := none, todo := [] }

/-- A bus write for which no answer is listed: the next state is that of the answer `ok` or that of the answer `fail` (R120,
R203), whole. R5 and R52 make the answer an input of the step; that an answer which is not listed is one of the two, drawn as a
free value, is the model's choice (notes/assumptions/4.md). R226: a write that is never answered has no step, which is the fault
of the same log entry. Holds for each value of the free answer. -/
def Obligations.BuswrUnlistedAnswerOrHang : Prop :=
  (∀ b s, s.replies = [] →
    exec (.buswr b) s = .next { s with pins := b, nwr := s.nwr + 1, upc := s.upc + 1,
                                       trace := s.trace ++ [.wr b .ok], draws := s.draws + 1 } ∨
    ∃ p code, code = (if s.running = some .init then ResultCode.initError else ResultCode.ioError) ∧
      exec (.buswr b) s = .next { s with
        trace := s.trace ++ [.wr b .fail], pins := p, draws := s.draws + 2
        result := ⟨code, s.nwr⟩, results := s.results ++ [⟨code, s.nwr⟩]
        fsm := (if s.running = some .init then Fsm.initFailed else s.fsm)
        busy := false, running := none, todo := [] }) ∧
  (∀ b s rest, s.replies = none :: rest → exec (.buswr b) s = .fault .transportHang)

/-- R123: a delay: one event of its class, which takes at least `T_k`; only `upc` and the trace change; it cannot fail. -/
def Obligations.WaitEmitsItsDelay : Prop :=
  ∀ k s, exec (.wait k) s = .next { s with upc := s.upc + 1, trace := s.trace ++ [.wait k] } ∧
    traceMicros s.cfg (s.trace ++ [.wait k]) = traceMicros s.cfg s.trace + delayMicros s.cfg k

/-- The wire phases EH and EL: each executed alone is the one bus write of its byte and no delay, which is the model's reading of
the two rows (notes/assumptions/14.md); the bytes are those of R94, and with the default parameters `dddd110r` and `dddd100r`
(R81). -/
def Obligations.WirePhasesWriteTheirByte : Prop :=
  ∀ d r s rest, s.replies = some .ok :: rest →
    exec (.eh d r) s = .next { s with replies := rest, pins := wireHigh s.cfg s.bl (nibbleOf s.cfg d r),
                                      nwr := s.nwr + 1, upc := s.upc + 1,
                                      trace := s.trace ++ [.wr (wireHigh s.cfg s.bl (nibbleOf s.cfg d r)) .ok] } ∧
    exec (.el d r) s = .next { s with replies := rest, pins := wireLow s.cfg s.bl (nibbleOf s.cfg d r),
                                      nwr := s.nwr + 1, upc := s.upc + 1,
                                      trace := s.trace ++ [.wr (wireLow s.cfg s.bl (nibbleOf s.cfg d r)) .ok] } ∧
    (s.cfg = Config.default → s.bl = true →
      wireHigh s.cfg s.bl (nibbleOf s.cfg d r) = d ++ 0b110#3 ++ (if r then 1#1 else 0#1) ∧
      wireLow s.cfg s.bl (nibbleOf s.cfg d r) = d ++ 0b100#3 ++ (if r then 1#1 else 0#1))

/-! ### The encoder -/

/-- R141: a strobe: `NIB` is loaded, then the six primitives run; nothing else changes. -/
def Obligations.StrobeRunsSixPrimitives : Prop :=
  ∀ n s rest, s.resetIn = [] → answersOk s 2 rest →
    ∃ t, exec (.strobe n) s = .next t ∧
      t = { s with
        nib := n
        todo := [.op (.buswr (n ||| s.cfg.enBit ||| blm s.cfg s.bl)), .op (.wait .wr), .op (.wait .eh),
                 .op (.buswr ((n &&& ~~~s.cfg.enBit) ||| blm s.cfg s.bl)), .op (.wait .wr), .op (.wait .el)] ++ s.todo } ∧
      steps 6 t = .next { s with
        nib := n, replies := rest, pins := (n &&& ~~~s.cfg.enBit) ||| blm s.cfg s.bl, nwr := s.nwr + 2, upc := s.upc + 6
        trace := s.trace ++
          [.wr (n ||| s.cfg.enBit ||| blm s.cfg s.bl) .ok, .wait .wr, .wait .eh,
           .wr ((n &&& ~~~s.cfg.enBit) ||| blm s.cfg s.bl) .ok, .wait .wr, .wait .el] }

/-- R145 and D5: a bootstrap nibble under each `BOOT_FORM`; under the default it is one strobe of the value on bits 7:4. -/
def Obligations.BootnibFollowsItsForm : Prop :=
  ∀ v s,
    (s.cfg.bootForm = .strobedNibble →
      exec (.bootnib v) s = .next { s with todo := .op (.strobe (v ++ 0#4)) :: s.todo }) ∧
    (s.cfg.bootForm = .fullByte →
      exec (.bootnib v) s = .next { s with todo := .op (.sendbyte (0#4 ++ v) false) :: s.todo }) ∧
    (s.cfg.bootForm = .rawWrite →
      exec (.bootnib v) s = .next { s with todo := .op (.buswr (0#4 ++ v)) :: .op (.wait .wr) :: s.todo })

/-- R146, R147: a byte: `CMD` and `RS` are loaded, then the strobe of the high nibble byte and that of the low one run. -/
def Obligations.SendbyteRunsTwoStrobes : Prop :=
  ∀ b rs s rest, s.resetIn = [] → answersOk s 4 rest →
    ∃ t, exec (.sendbyte b rs) s = .next t ∧
      t = { s with
        cmd := b, rs := rs
        todo := .op (.strobe ((b &&& 0xF0#8) ||| rsm s.cfg rs)) :: .op (.strobe (((b <<< 4) &&& 0xF0#8) ||| rsm s.cfg rs)) ::
          s.todo } ∧
      steps 14 t = .next { s with
        cmd := b, rs := rs, nib := ((b <<< 4) &&& 0xF0#8) ||| rsm s.cfg rs, replies := rest
        pins := wireLow s.cfg s.bl (((b <<< 4) &&& 0xF0#8) ||| rsm s.cfg rs), nwr := s.nwr + 4, upc := s.upc + 12
        trace := s.trace ++ (Expand.sendbyte s.cfg s.bl b rs).map Prim.okEvent }

/-- R143: the second write of a strobe is the first with the enable bit cleared and every other bit unchanged. -/
def Obligations.StrobeClearsOnlyTheEnableBit : Prop :=
  ∀ (c : Config) (bl : Bool) (n : Byte), c.wf → nibbleByteOk c n = true →
    wireHigh c bl n &&& c.enBit = c.enBit ∧ wireLow c bl n &&& c.enBit = 0#8 ∧
      wireLow c bl n = wireHigh c bl n &&& ~~~c.enBit

/-- R82: every nibble byte the block builds (R91, R93) has only data bits and the register-select bit, so that its enable bit is
0; in each of them the data nibble stands in bits 7:4 and the flag (0 in a bootstrap nibble) in the register-select bit. -/
def Obligations.BuiltNibbleBytesAreNibbleBytes : Prop :=
  ∀ (c : Config) (b : Byte) (v : Nibble) (rs : Bool), c.wf →
    ∀ n d r, (n, d, r) ∈ [(hiNibble c b rs, b.extractLsb' 4 4, rs), (loNibble c b rs, b.extractLsb' 0 4, rs),
        (bootNibble v, v, false), (nibbleOf c v rs, v, rs)] →
      n &&& ~~~(0xF0#8 ||| c.rsBit) = 0#8 ∧ n &&& c.enBit = 0#8 ∧ n &&& c.blBit = 0#8 ∧ n &&& c.rwBit = 0#8 ∧
        n &&& ~~~c.enBit = n ∧ n.extractLsb' 4 4 = d ∧ n &&& c.rsBit = (if r then c.rsBit else 0#8)

/-- R93, with R57 and R58: the high nibble byte is `(c & 0xF0) | RSM(rs)` and the low one `((c << 4) & 0xF0) | RSM(rs)`; the one
carries bits 7:4 of the byte and the other bits 3:0, in place and in order. -/
def Obligations.NibbleSplitKeepsEveryBit : Prop :=
  ∀ (c : Config) (b : Byte) (rs : Bool), c.wf →
    hiNibble c b rs = (b &&& 0xF0#8) ||| (if rs then c.rsBit else 0#8) ∧
    loNibble c b rs = ((b <<< 4) &&& 0xF0#8) ||| (if rs then c.rsBit else 0#8) ∧
    (hiNibble c b rs).extractLsb' 4 4 = b.extractLsb' 4 4 ∧ (loNibble c b rs).extractLsb' 4 4 = b.extractLsb' 0 4 ∧
      (hiNibble c b rs).extractLsb' 4 4 ++ (loNibble c b rs).extractLsb' 4 4 = b

/-- R149: the register-select bit is the flag in each of the four wire bytes of a byte. -/
def Obligations.RegisterSelectIsTheSameInAllFourBytes : Prop :=
  ∀ (c : Config) (bl rs : Bool) (b : Byte), c.wf →
    ∀ w ∈ writeBytes (Expand.sendbyte c bl b rs), w &&& c.rsBit = (if rs then c.rsBit else 0#8)

/-- R150, R70, R71: what a byte sent delivers: its two nibbles with the flag, high first, which pair back into the byte. -/
def Obligations.SendbyteDeliversItsByte : Prop :=
  ∀ (c : Config) (rs : Bool) (b : Byte), c.wf →
    latched c ((Expand.sendbyte c true b rs).map Prim.okEvent) = [(rs, b.extractLsb' 4 4), (rs, b.extractLsb' 0 4)] ∧
      pairNibbles (latched c ((Expand.sendbyte c true b rs).map Prim.okEvent)) = [(rs, b)]

/-- R103: the nibble bytes of a trace of complete strobes are read back from its bus writes. -/
def Obligations.NibbleBytesAreReadBack : Prop :=
  ∀ (c : Config) (ns : List Byte), c.wf → (∀ n ∈ ns, nibbleByteOk c n = true) →
    nibbleBytes c true (writeBytes (ns.flatMap (Expand.strobe c true))) = ns

/-! ### Commands and data -/

/-- The emitted rows executed alone: each command puts its byte, sent whole with `RS = 0`, before the sequencer, and DATA its byte
unchanged with `RS = 1`; nothing else happens. The bytes and the flag are those of R83 to R90; that a row executed alone, at
every setting, those the block never emits included, is a SENDBYTE of its byte is the model's choice
(notes/assumptions/15.md). -/
def Obligations.EmittedBytesAreSentWhole : Prop :=
  ∀ s : State,
    exec .cmdClear s = .next { s with todo := .op (.sendbyte s.cfg.cmdClear false) :: s.todo } ∧
    exec .cmdHome s = .next { s with todo := .op (.sendbyte s.cfg.cmdHome false) :: s.todo } ∧
    (∀ id sh, exec (.cmdEntry id sh) s = .next { s with todo := .op (.sendbyte (entryByte id sh) false) :: s.todo }) ∧
    (∀ d c b, exec (.cmdDispctl d c b) s = .next { s with todo := .op (.sendbyte (dispctlByte d c b) false) :: s.todo }) ∧
    (∀ l n f, exec (.cmdFuncset l n f) s = .next { s with todo := .op (.sendbyte (funcsetByte l n f) false) :: s.todo }) ∧
    (∀ a, exec (.cmdSetddram a) s = .next { s with todo := .op (.sendbyte (setddramByte s.cfg a) false) :: s.todo }) ∧
    (∀ b, exec (.data b) s = .next { s with todo := .op (.sendbyte b true) :: s.todo })

/-- Under the default parameters the byte each command row sends is the word of its pattern, and the settings of the design give
`0x06`, `0x0C`, `0x28`: patterns and values are those of R83 and R86 to R89; that a row executed alone, at any setting, is a
SENDBYTE of that byte is the model's choice (notes/assumptions/15.md). -/
def Obligations.EmittedBytesMatchTheirPatterns : Prop :=
  (∀ i : Instr, i.wordClass = .cmd → ∀ s : State, s.cfg = Config.default →
    exec i s = .next { s with todo := .op (.sendbyte (BitVec.ofNat 8 (encode i)) false) :: s.todo }) ∧
  entryByte true false = 0x06#8 ∧ dispctlByte true false false = 0x0C#8 ∧ funcsetByte false true false = 0x28#8

/-! ### INIT -/

/-- R160, R219: INIT accepted: only before initialisation; `BUSY` is 1, `ISTEP` and `upc` are 0, and its nine steps stand
before the sequencer, each with its assignment; nothing else changes. -/
def Obligations.InitIsAccepted : Prop :=
  ∀ s, s.busy = false → s.fsm = .poweredUnknown →
    exec .init s = .next { s with
      busy := true, running := some .init, istep := 0, upc := 0, nwr := 0
      todo := [.op (.bootnib s.cfg.bootNib8), .initStep 1, .op (.bootnib s.cfg.bootNib8), .initStep 2,
               .op (.bootnib s.cfg.bootNib8), .initStep 3, .op (.bootnib s.cfg.bootNib4), .initStep 4,
               .op (.sendbyte s.cfg.cmdFuncset false), .initStep 5, .op (.sendbyte s.cfg.cmdDispctl false), .initStep 6,
               .op (.sendbyte s.cfg.cmdClear false), .initStep 7, .op (.sendbyte s.cfg.cmdEntry false), .initStep 8,
               .op (.wait .init), .initStep 9] }

/-- R160, R168: INIT with every answer `ok`: after its steps `FSM` is `Ready`, `ISTEP` 9, `RESULT` `OK`, `BUSY` 0, `RS` 0, the
trace has grown by exactly its expansion, and the registers of WRSTR are as they were. -/
def Obligations.InitRunsToReady : Prop :=
  ∀ s rest, s.busy = false → s.fsm = .poweredUnknown → s.resetIn = [] →
    answersOk s (writeBytes (Expand.init s.cfg s.bl)).length rest →
    ∃ t k u, exec .init s = .next t ∧ t.busy = true ∧ steps k t = .next u ∧
      u.fsm = .ready ∧ u.istep = 9 ∧ u.busy = false ∧ u.running = none ∧ u.todo = [] ∧ u.result.code = .ok ∧
      u.results = s.results ++ [u.result] ∧ u.rs = false ∧ u.replies = rest ∧
      u.trace = s.trace ++ (Expand.init s.cfg s.bl).map Prim.okEvent ∧ u.upc = (Expand.init s.cfg s.bl).length ∧
      samePosition s u ∧ sameOutside s u

/-- R167: no wire byte of INIT has the register-select bit, every one has the backlight bit (under the two forms of the
bootstrap that go through a strobe). -/
def Obligations.InitKeepsRegisterSelectClear : Prop :=
  ∀ c : Config, c.wf → c.bootForm ≠ .rawWrite →
    ∀ w ∈ writeBytes (Expand.init c true), w &&& c.rsBit = 0#8 ∧ w &&& c.blBit = c.blBit

/-- R163, V20, R70: the nibbles INIT latches under the default form: the bootstrap values, then the four commands. -/
def Obligations.InitLatchesBootstrapThenCommands : Prop :=
  ∀ c : Config, c.wf → c.bootForm = .strobedNibble →
    ∃ rest, latched c ((Expand.init c true).map Prim.okEvent) =
        [(false, c.bootNib8), (false, c.bootNib8), (false, c.bootNib8), (false, c.bootNib4)] ++ rest ∧
      pairNibbles rest = [(false, c.cmdFuncset), (false, c.cmdDispctl), (false, c.cmdClear), (false, c.cmdEntry)]

/-- R162: the transitions of `FSM`: in a step without reset, `FSM` and `ISTEP` stay, or INIT completes its next step, or a write
of INIT fails; so `Ready` (`ISTEP` 9, which has no next) and `InitFailed` (of no `ISTEP`) are left only by reset. -/
def Obligations.FsmMovesOnlyByInitOrReset : Prop :=
  ∀ s t, SafeState s → s.resetIn.head? ≠ some true → step s = .next t →
    (t.fsm = s.fsm ∧ t.istep = s.istep) ∨
    (s.running = some .init ∧ s.fsm = Fsm.ofStep s.istep ∧ t.istep.val = s.istep.val + 1 ∧ t.fsm = Fsm.ofStep t.istep) ∨
    (s.running = some .init ∧ s.fsm ≠ .ready ∧ t.istep = s.istep ∧ t.fsm = .initFailed ∧ t.busy = false ∧
      t.result.code = .initError)

/-! ### CLEAR and WRSTR -/

/-- R181: CLEAR accepted, in `Ready`: the two commands stand before the sequencer; nothing else changes. -/
def Obligations.ClearIsAccepted : Prop :=
  ∀ s, s.busy = false → s.fsm = .ready →
    exec .clear s = .next { s with
      busy := true, running := some .clear, upc := 0, nwr := 0
      todo := [.op (.sendbyte s.cfg.cmdClear false), .op (.sendbyte s.cfg.cmdHome false)] }

/-- R181, R180: CLEAR with every answer `ok`. -/
def Obligations.ClearRunsToItsResult : Prop :=
  ∀ s rest, s.busy = false → s.fsm = .ready → s.resetIn = [] → answersOk s 8 rest →
    ∃ t k u, exec .clear s = .next t ∧ t.busy = true ∧ steps k t = .next u ∧
      u.busy = false ∧ u.running = none ∧ u.todo = [] ∧ u.result.code = .ok ∧ u.results = s.results ++ [u.result] ∧
      u.rs = false ∧ u.replies = rest ∧ u.trace = s.trace ++ (Expand.clear s.cfg s.bl).map Prim.okEvent ∧
      u.upc = 24 ∧ u.fsm = .ready ∧ u.istep = s.istep ∧ samePosition s u ∧ sameOutside s u

/-- R182: two CLEARs presented in succession emit the same events twice, whatever the state they start from. -/
def Obligations.ClearTwiceEmitsTheSameTwice : Prop :=
  ∀ s rest text text', idle s → s.fsm = .ready → answersOk s 16 rest →
    s.requests = [⟨0x10000#18, text⟩, ⟨0x10000#18, text'⟩] →
    ∃ k u, steps k s = .next u ∧ u.busy = false ∧ u.fsm = .ready ∧ u.requests = [] ∧ u.replies = rest ∧
      u.trace = s.trace ++ (Expand.clear s.cfg s.bl).map Prim.okEvent ++ (Expand.clear s.cfg s.bl).map Prim.okEvent

/-- R183, R95, R189: SETADDR: `ADDR` is the command base plus the row base plus the column, modulo 256, and is sent as a
command; nothing else changes. A row that has no base gets what the row policy says; that SETADDR given such a row alone is
refused like WRSTR is the model's reading (notes/assumptions/10.md). -/
def Obligations.SetaddrComputesTheAddressByte : Prop :=
  ∀ row col s,
    (∀ base, rowBaseOf s.cfg row = some base →
      ∃ a : Byte, a.toNat = (s.cfg.cmdSetddram.toNat + base.toNat + col.toNat) % 256 ∧
        exec (.setaddr row col) s = .next { s with addr := a, todo := .op (.sendbyte a false) :: s.todo }) ∧
    (rowBaseOf s.cfg row = none →
      (s.cfg.rowPolicy = .refuse → exec (.setaddr row col) s = .next { s with
        result := { s.result with code := .badRow }, results := s.results ++ [{ s.result with code := .badRow }] }) ∧
      (s.cfg.rowPolicy = .zeroOffset → exec (.setaddr row col) s = .next { s with
        addr := s.cfg.cmdSetddram + col, todo := .op (.sendbyte (s.cfg.cmdSetddram + col) false) :: s.todo }) ∧
      (s.cfg.rowPolicy = .zeroPosition → exec (.setaddr row col) s = .next { s with
        addr := s.cfg.cmdSetddram, todo := .op (.sendbyte s.cfg.cmdSetddram false) :: s.todo }))

/-- R56, R184: the row bases of the design, and no other row. For any parameters, the rows that can have a base are those from 1
to `N_ROWS` (R6), whose base is the one `ROW_BASE` lists. Where `N_ROWS` exceeds the number of bases listed, a valid row without
a listed base has none: the spec does not speak of that case, and it is the model's choice (notes/assumptions/10.md). -/
def Obligations.RowBasesOfTheDesign : Prop :=
  (∀ row : Byte,
    (row = 1#8 → rowBaseOf Config.default row = some 0x00#8) ∧ (row = 2#8 → rowBaseOf Config.default row = some 0x40#8) ∧
    (row = 3#8 → rowBaseOf Config.default row = some 0x14#8) ∧ (row = 4#8 → rowBaseOf Config.default row = some 0x54#8) ∧
    (row.toNat < 1 ∨ 4 < row.toNat → rowBaseOf Config.default row = none)) ∧
  (∀ (c : Config) (row : Byte),
    (row.toNat < 1 ∨ c.nRows < row.toNat → rowBaseOf c row = none) ∧
    (1 ≤ row.toNat → row.toNat ≤ c.nRows → rowBaseOf c row = c.rowBase[row.toNat - 1]?))

/-- R190: the sum passes `0xFF` exactly when the column is greater than `0x7F - ROW_BASE[row]`; the carry is discarded and
SETADDR goes on. -/
def Obligations.AddressSumWrapsSilently : Prop :=
  ∀ row col base s, s.cfg = Config.default → rowBaseOf s.cfg row = some base →
    (0x80 + base.toNat + col.toNat > 0xFF ↔ col.toNat > 0x7F - base.toNat) ∧
    ∃ t, exec (.setaddr row col) s = .next t ∧
      t.addr.toNat = (if col.toNat > 0x7F - base.toNat then 0x80 + base.toNat + col.toNat - 256
        else 0x80 + base.toNat + col.toNat) ∧
      t.result = s.result ∧ t.trace = s.trace

/-- R190's remark that a wrapped address byte always has bit 7 clear. It fails: row 4 with column `0xFF` gives `0xD3`
(notes/assumptions/11.md). -/
def Obligations.WrappedAddressAlwaysHasBit7Clear : Prop :=
  ∀ row col base : Byte, rowBaseOf Config.default row = some base → 0x80 + base.toNat + col.toNat > 0xFF →
    addrByte Config.default row col ≠ none ∧
      ∀ a, addrByte Config.default row col = some a → a &&& 0x80#8 = 0#8

/-- R185: WRDATA sends its byte to the data register; nothing else changes. -/
def Obligations.WrdataSendsToTheDataRegister : Prop :=
  ∀ b s, exec (.wrdata b) s = .next { s with todo := .op (.sendbyte b true) :: s.todo }

/-- R186: WRSTR accepted, in `Ready` with a row that has an address: the operands are loaded and the address and the loop stand
before the sequencer; nothing else changes. -/
def Obligations.WrstrIsAccepted : Prop :=
  ∀ row col s, s.busy = false → s.fsm = .ready → addrByte s.cfg row col ≠ none →
    exec (.wrstr row col) s = .next { s with
      busy := true, running := some .wrstr, upc := 0, nwr := 0, row := row, col := col, idx := 0, len := s.txt.length
      todo := [.op (.setaddr row col), .textLoop] }

/-- R186, R59, R98: WRSTR with every answer `ok`, for every text: the trace grows by the address and then each byte of the text in
order, `IDX` ends at `LEN`, `RESULT` is `OK`; `FSM` stays. -/
def Obligations.WrstrRunsToItsResult : Prop :=
  ∀ row col a text s rest, s.busy = false → s.fsm = .ready → s.resetIn = [] → s.txt = Memory.ofBytes text →
    addrByte s.cfg row col = some a → answersOk s (4 * (1 + text.length)) rest →
    ∃ t k u, exec (.wrstr row col) s = .next t ∧ t.busy = true ∧ steps k t = .next u ∧
      u.busy = false ∧ u.running = none ∧ u.todo = [] ∧ u.result.code = .ok ∧ u.results = s.results ++ [u.result] ∧
      u.row = row ∧ u.col = col ∧ u.addr = a ∧ u.len = text.length ∧ u.idx = text.length ∧ u.rs = !text.isEmpty ∧
      u.trace = s.trace ++ (Expand.wrstr s.cfg s.bl row col text).map Prim.okEvent ∧
      u.upc = 12 * (1 + text.length) ∧ u.replies = rest ∧ u.fsm = .ready ∧ u.istep = s.istep ∧ sameOutside s u

/-- R192: the register-select bit is clear in the four bytes of the address and set in every byte of every character. -/
def Obligations.WrstrRegisterSelectPhases : Prop :=
  ∀ (c : Config) (row col a : Byte) (text : List Byte), c.wf → addrByte c row col = some a →
    ∃ head tail, writeBytes (Expand.wrstr c true row col text) = head ++ tail ∧ head.length = 4 ∧
      (∀ w ∈ head, w &&& c.rsBit = 0#8) ∧ (∀ w ∈ tail, w &&& c.rsBit = c.rsBit)

/-- R59, R70, R71, R187: what WRSTR delivers to a controller that is in step: the address command, then the text, byte for byte. -/
def Obligations.WrstrDeliversAddressThenText : Prop :=
  ∀ (c : Config) (row col a : Byte) (text : List Byte), c.wf → addrByte c row col = some a →
    pairNibbles (latched c ((Expand.wrstr c true row col text).map Prim.okEvent)) =
      (false, a) :: text.map fun b => (true, b)

/-- R189: a row outside 1 to 4, under each policy: refused with `BadRow` and nothing else, or accepted with its address. -/
def Obligations.RowOutsideOneToFourFollowsThePolicy : Prop :=
  ∀ row col s policy, s.cfg = { Config.default with rowPolicy := policy } → (row.toNat < 1 ∨ 4 < row.toNat) →
    s.busy = false → s.fsm = .ready →
    (policy = .refuse →
      exec (.wrstr row col) s = .next { s with result := { s.result with code := .badRow },
                                               results := s.results ++ [{ s.result with code := .badRow }] }) ∧
    (policy = .zeroOffset → addrByte s.cfg row col = some (0x80#8 + col) ∧
      ∃ t, exec (.wrstr row col) s = .next t ∧ t.busy = true ∧ t.running = some .wrstr) ∧
    (policy = .zeroPosition → addrByte s.cfg row col = some 0x80#8 ∧
      ∃ t, exec (.wrstr row col) s = .next t ∧ t.busy = true ∧ t.running = some .wrstr)

/-! ### Admission -/

/-- R206, R208, R219: a request in a state that does not admit it is refused with `BadState`: `RESULT.code` and the result
returned are all that changes. -/
def Obligations.WrongStateIsRefused : Prop :=
  ∀ s, s.busy = false →
    (s.fsm ≠ .poweredUnknown → exec .init s = .next { s with
      result := { s.result with code := .badState }, results := s.results ++ [{ s.result with code := .badState }] }) ∧
    (s.fsm ≠ .ready → exec .clear s = .next { s with
      result := { s.result with code := .badState }, results := s.results ++ [{ s.result with code := .badState }] }) ∧
    (s.fsm ≠ .ready → ∀ row col, exec (.wrstr row col) s = .next { s with
      result := { s.result with code := .badState }, results := s.results ++ [{ s.result with code := .badState }] })

/-- R65, R211 (1): a request met while `BUSY = 1` has no effect, and no step of a busy block takes a request from the port. -/
def Obligations.BusyBlockAcceptsNothing : Prop :=
  (∀ s i, s.busy = true → i.isRequest = true → exec i s = .next s) ∧
  (∀ s t, s.busy = true → step s = .next t → t.requests = s.requests)

/-- R211, R207: the order of the checks on a request at the port of an idle block: `op`, then the state, then the row. -/
def Obligations.AdmissionChecksInOrder : Prop :=
  ∀ s r rest, idle s → s.requests = r :: rest →
    ∃ t, step s = .next t ∧ t.requests = rest ∧ t.trace = s.trace ∧
      (if r.word.extractLsb' 16 2 = 3#2 then t.busy = false ∧ t.result.code = .badOp
       else if (r.word.extractLsb' 16 2 = 0#2 ∧ s.fsm ≠ .poweredUnknown) ∨
           (r.word.extractLsb' 16 2 ≠ 0#2 ∧ s.fsm ≠ .ready) then t.busy = false ∧ t.result.code = .badState
       else if r.word.extractLsb' 16 2 = 2#2 ∧ addrByte s.cfg (r.word.extractLsb' 8 8) (r.word.extractLsb' 0 8) = none then
         t.busy = false ∧ t.result.code = .badRow
       else t.busy = true ∧ t.upc = 0 ∧ t.result = s.result)

/-! ### Timing -/

/-- R254, R124, R142, R148: every row of the timing table, as a formula over the parameters and as the value of the design. -/
def Obligations.TimingFigures : Prop :=
  (∀ (c : Config) (bl rs : Bool) (n b : Byte) (v : Nibble) (row col a : Byte) (text : List Byte),
    minMicros c ((Expand.strobe c bl n).take 3) = c.tWr + c.tEh ∧
    minMicros c ((Expand.strobe c bl n).drop 3) = c.tWr + c.tEl ∧
    minMicros c (Expand.strobe c bl n) = 2 * c.tWr + c.tEh + c.tEl ∧
    (c.bootForm = .strobedNibble → minMicros c (Expand.bootnib c bl v) = 2 * c.tWr + c.tEh + c.tEl) ∧
    minMicros c (Expand.sendbyte c bl b rs) = 4 * c.tWr + 2 * c.tEh + 2 * c.tEl ∧
    (addrByte c row col = some a →
      minMicros c (Expand.setaddr c bl row col) = 4 * c.tWr + 2 * c.tEh + 2 * c.tEl ∧
      minMicros c (Expand.wrstr c bl row col text) = (1 + text.length) * (4 * c.tWr + 2 * c.tEh + 2 * c.tEl)) ∧
    minMicros c (Expand.clear c bl) = 2 * (4 * c.tWr + 2 * c.tEh + 2 * c.tEl) ∧
    (c.bootForm = .strobedNibble → minMicros c (Expand.init c bl) =
      4 * (2 * c.tWr + c.tEh + c.tEl) + 4 * (4 * c.tWr + 2 * c.tEh + 2 * c.tEl) + c.tInit)) ∧
  (let c := Config.default
   c.tWr + c.tEh = 600 ∧ c.tWr + c.tEl = 200 ∧ 2 * c.tWr + c.tEh + c.tEl = 800 ∧
     4 * c.tWr + 2 * c.tEh + 2 * c.tEl = 1600 ∧ 2 * (4 * c.tWr + 2 * c.tEh + 2 * c.tEl) = 3200 ∧
     4 * (2 * c.tWr + c.tEh + c.tEl) + 4 * (4 * c.tWr + 2 * c.tEh + 2 * c.tEl) + c.tInit = 209600)

/-! ### Frames -/

/-- R31, R212, R54: no operation writes the parameters, the backlight latch, the `TXT` space, the requests presented or the
levels of the reset line, and the trace and the results returned only grow. Of the rest outside the block, the transport's
answers are only used up from the front (R52), and `PINS` (R36) is written by BUSWR, EH and EL alone. -/
def Obligations.NoOperationWritesParametersTextOrRequests : Prop :=
  ∀ i s t, exec i s = .next t →
    sameOutside s t ∧ s.trace <+: t.trace ∧ s.results <+: t.results ∧ t.replies <:+ s.replies ∧
      (t.replies = s.replies ∧ t.pins = s.pins ∨ (∃ b, i = .buswr b) ∨ ∃ d r, i = .eh d r ∨ i = .el d r)

/-- The frame of the operations that stand for an expansion: SENDBYTE writes `CMD` and `RS`, STROBE writes `NIB`, SETADDR writes
`ADDR`, the others no register; none of them makes a bus write or a delay of its own. SETADDR of a row that has an address keeps
`RESULT` and the results returned. That SETADDR executed alone on a row without one keeps `ADDR` and may write `RESULT.code`
only is the model's choice (notes/assumptions/10.md), and so is what the command rows and DATA do executed alone
(notes/assumptions/15.md). -/
def Obligations.ExpandingOperationsFrame : Prop :=
  ∀ i s t, exec i s = .next t →
    (i ∈ [.cmdClear, .cmdHome] ∨ (∃ b, i = .wrdata b ∨ i = .data b) ∨ (∃ v, i = .bootnib v) ∨ (∃ x y, i = .cmdEntry x y) ∨
      (∃ x y z, i = .cmdDispctl x y z ∨ i = .cmdFuncset x y z) ∨ (∃ a, i = .cmdSetddram a) →
      t.cmd = s.cmd ∧ t.rs = s.rs ∧ t.nib = s.nib ∧ samePosition s t ∧ sameControl s t ∧ sameBus s t) ∧
    (∀ b r, i = .sendbyte b r → t.cmd = b ∧ t.rs = r ∧ t.nib = s.nib ∧ samePosition s t ∧ sameControl s t ∧ sameBus s t) ∧
    (∀ n, i = .strobe n → t.nib = n ∧ t.cmd = s.cmd ∧ t.rs = s.rs ∧ samePosition s t ∧ sameControl s t ∧ sameBus s t) ∧
    (∀ r c, i = .setaddr r c → t.addr = (addrByte s.cfg r c).getD s.addr ∧ t.cmd = s.cmd ∧ t.rs = s.rs ∧ t.nib = s.nib ∧
      t.row = s.row ∧ t.col = s.col ∧ t.idx = s.idx ∧ t.len = s.len ∧ t.fsm = s.fsm ∧ t.istep = s.istep ∧ t.busy = s.busy ∧ t.running = s.running ∧
      t.result.failIdx = s.result.failIdx ∧ sameBus s t ∧
      (addrByte s.cfg r c ≠ none → t.result = s.result ∧ t.results = s.results))

/-- The frame of the operations that touch the bus (BUSWR, WAIT, EH, EL). No working register and not `ISTEP` is written. One that
goes on advances `upc` by one and leaves `FSM`, `BUSY`, the running request, `RESULT` and what is left to do as they were (the
pins, the trace, the answers and `nwr` move with the bus). One that fails aborts (R203): `upc` and `nwr` as they were, nothing
left to do, `FSM` changed in INIT only. For BUSWR and WAIT this is R120, R123 and R203; that EH and EL executed alone are each
one bus write that advances `upc` by one is the model's reading (notes/assumptions/14.md). -/
def Obligations.BusOperationsFrame : Prop :=
  ∀ i s t, exec i s = .next t →
    ((∃ b, i = .buswr b) ∨ (∃ k, i = .wait k) ∨ (∃ d r, i = .eh d r ∨ i = .el d r)) →
    t.cmd = s.cmd ∧ t.rs = s.rs ∧ t.nib = s.nib ∧ samePosition s t ∧ t.istep = s.istep ∧
      ((sameControl s t ∧ t.todo = s.todo ∧ t.upc = s.upc + 1) ∨
        (t.busy = false ∧ t.todo = [] ∧ t.upc = s.upc ∧ t.nwr = s.nwr ∧ (t.fsm = s.fsm ∨ s.running = some .init)))

/-! ### Whole-machine rules -/

/-- R54, R55: the `TXT` space of a text reads as the text: byte `j` at index `j`, and no location at `j >= LEN`. -/
def Obligations.TextSpaceReadsAsTheText : Prop :=
  ∀ (text : List Byte) (j : Nat), Memory.read (Memory.ofBytes text) j = text[j]?

/-- R64: a step emits at most one event, at the end of the trace. -/
def Obligations.StepEmitsAtMostOneEvent : Prop :=
  ∀ s t, step s = .next t → t.trace = s.trace ∨ ∃ e, t.trace = s.trace ++ [e]

/-- R31, R38: no step writes the parameters, and the backlight latch, once on, stays on. -/
def Obligations.ParametersAndBacklightStay : Prop :=
  ∀ s t, step s = .next t → t.cfg = s.cfg ∧ (t.bl = s.bl ∨ t.bl = true)

/-- The reset state meets the invariant. -/
def Obligations.ResetMeetsTheInvariant : Prop := SafeState State.reset

/-- Every step keeps the invariant. -/
def Obligations.StepKeepsTheInvariant : Prop := ∀ s t, SafeState s → step s = .next t → SafeState t

/-- R26, R27, R127: a step of a running request without reset does nothing to the trace and leaves the rest of the expansion as it
was; or performs the next primitive, `E[upc]`, and advances `upc` by one; or fails on it and ends the request. -/
def Obligations.StepPerformsTheExpansionInOrder : Prop :=
  ∀ s t, SafeState s → s.busy = true → s.resetIn.head? ≠ some true → step s = .next t →
    (t.trace = s.trace ∧ t.upc = s.upc ∧ remaining t = remaining s) ∨
    (∃ k, (expansion s)[s.upc]? = some (.wait k) ∧ t.trace = s.trace ++ [.wait k] ∧ t.upc = s.upc + 1 ∧
      remaining s = .wait k :: remaining t) ∨
    (∃ b, (expansion s)[s.upc]? = some (.buswr b) ∧ t.trace = s.trace ++ [.wr b .ok] ∧ t.upc = s.upc + 1 ∧ t.pins = b ∧
      remaining s = .buswr b :: remaining t) ∨
    (∃ b, (expansion s)[s.upc]? = some (.buswr b) ∧ t.trace = s.trace ++ [.wr b .fail] ∧ t.upc = s.upc ∧ t.busy = false ∧
      remaining t = [])

/-- R127, R203, R191, R169: a running request at its start, the transport answering with any list of answers long enough: the
request ends, the trace has grown by exactly the events of `Run(E)` on those answers, and the result and `FSM` are those of
`Done` or of the failed write. -/
def Obligations.RequestEndsAsItsExpansionRuns : Prop :=
  ∀ s job answers rest, SafeState s → s.running = some job → s.upc = 0 → s.nwr = 0 → s.resetIn = [] →
    s.replies = (answers : List Reply).map some ++ rest → (writeBytes (expansion s)).length ≤ answers.length →
    ∃ k t, steps k s = .next t ∧ t.busy = false ∧ t.trace = s.trace ++ runEvents (expansion s) answers ∧
      t.results = s.results ++ [t.result] ∧
      (match runEnd (expansion s) answers 0 with
       | .done => t.result.code = .ok ∧ t.fsm = .ready ∧ t.upc = (expansion s).length
       | .failed n => t.result = ⟨if job = .init then .initError else .ioError, n⟩ ∧
           t.fsm = (if job = .init then .initFailed else .ready))

/-- R255, R245: while the transport answers every write and no reset is applied, a running request ends. -/
def Obligations.EveryAnsweredRequestEnds : Prop :=
  ∀ s, SafeState s → s.busy = true → answering s → ∃ k t, steps k s = .next t ∧ t.busy = false

/-- R226, R202: the machine stops only at a bus write that is never answered, and refuses nothing. -/
def Obligations.OnlyAHangStopsTheMachine : Prop :=
  ∀ s, SafeState s → (∀ f, step s = .fault f → f = .transportHang ∧ s.replies.head? = some none) ∧ ∀ r, step s ≠ .refused r

/-- R144, R101 (c, d): under the forms of the bootstrap that go through a strobe, every bus write ever emitted has the backlight bit
set and the `RW` bit clear. -/
def Obligations.EveryWireByteIsLegal : Prop :=
  ∀ s t, SafeState s → s.cfg.bootForm ≠ .rawWrite → traceLegal s.cfg s.trace → step s = .next t → traceLegal t.cfg t.trace
end

