-- ==== Sys2Proof/Laws/State.lean ====
section
/-! SUPPORT. One lemma for each field under each update of the shared operations, true by computation, so that no proof unfolds a
record update. -/

namespace Sys2Proof.Machine

variable (s : State)

@[simp] theorem emit_cfg (e : Event) : (emit e s).cfg = s.cfg := rfl
@[simp] theorem emit_cmd (e : Event) : (emit e s).cmd = s.cmd := rfl
@[simp] theorem emit_rs (e : Event) : (emit e s).rs = s.rs := rfl
@[simp] theorem emit_nib (e : Event) : (emit e s).nib = s.nib := rfl
@[simp] theorem emit_row (e : Event) : (emit e s).row = s.row := rfl
@[simp] theorem emit_col (e : Event) : (emit e s).col = s.col := rfl
@[simp] theorem emit_addr (e : Event) : (emit e s).addr = s.addr := rfl
@[simp] theorem emit_idx (e : Event) : (emit e s).idx = s.idx := rfl
@[simp] theorem emit_len (e : Event) : (emit e s).len = s.len := rfl
@[simp] theorem emit_upc (e : Event) : (emit e s).upc = s.upc := rfl
@[simp] theorem emit_nwr (e : Event) : (emit e s).nwr = s.nwr := rfl
@[simp] theorem emit_running (e : Event) : (emit e s).running = s.running := rfl
@[simp] theorem emit_todo (e : Event) : (emit e s).todo = s.todo := rfl
@[simp] theorem emit_fsm (e : Event) : (emit e s).fsm = s.fsm := rfl
@[simp] theorem emit_istep (e : Event) : (emit e s).istep = s.istep := rfl
@[simp] theorem emit_bl (e : Event) : (emit e s).bl = s.bl := rfl
@[simp] theorem emit_busy (e : Event) : (emit e s).busy = s.busy := rfl
@[simp] theorem emit_result (e : Event) : (emit e s).result = s.result := rfl
@[simp] theorem emit_pins (e : Event) : (emit e s).pins = s.pins := rfl
@[simp] theorem emit_txt (e : Event) : (emit e s).txt = s.txt := rfl
@[simp] theorem emit_requests (e : Event) : (emit e s).requests = s.requests := rfl
@[simp] theorem emit_replies (e : Event) : (emit e s).replies = s.replies := rfl
@[simp] theorem emit_resetIn (e : Event) : (emit e s).resetIn = s.resetIn := rfl
@[simp] theorem emit_trace (e : Event) : (emit e s).trace = s.trace ++ [e] := rfl
@[simp] theorem emit_results (e : Event) : (emit e s).results = s.results := rfl
@[simp] theorem emit_draws (e : Event) : (emit e s).draws = s.draws := rfl

@[simp] theorem push_cfg (ts : List Task) : (push ts s).cfg = s.cfg := rfl
@[simp] theorem push_cmd (ts : List Task) : (push ts s).cmd = s.cmd := rfl
@[simp] theorem push_rs (ts : List Task) : (push ts s).rs = s.rs := rfl
@[simp] theorem push_nib (ts : List Task) : (push ts s).nib = s.nib := rfl
@[simp] theorem push_row (ts : List Task) : (push ts s).row = s.row := rfl
@[simp] theorem push_col (ts : List Task) : (push ts s).col = s.col := rfl
@[simp] theorem push_addr (ts : List Task) : (push ts s).addr = s.addr := rfl
@[simp] theorem push_idx (ts : List Task) : (push ts s).idx = s.idx := rfl
@[simp] theorem push_len (ts : List Task) : (push ts s).len = s.len := rfl
@[simp] theorem push_upc (ts : List Task) : (push ts s).upc = s.upc := rfl
@[simp] theorem push_nwr (ts : List Task) : (push ts s).nwr = s.nwr := rfl
@[simp] theorem push_running (ts : List Task) : (push ts s).running = s.running := rfl
@[simp] theorem push_todo (ts : List Task) : (push ts s).todo = ts ++ s.todo := rfl
@[simp] theorem push_fsm (ts : List Task) : (push ts s).fsm = s.fsm := rfl
@[simp] theorem push_istep (ts : List Task) : (push ts s).istep = s.istep := rfl
@[simp] theorem push_bl (ts : List Task) : (push ts s).bl = s.bl := rfl
@[simp] theorem push_busy (ts : List Task) : (push ts s).busy = s.busy := rfl
@[simp] theorem push_result (ts : List Task) : (push ts s).result = s.result := rfl
@[simp] theorem push_pins (ts : List Task) : (push ts s).pins = s.pins := rfl
@[simp] theorem push_txt (ts : List Task) : (push ts s).txt = s.txt := rfl
@[simp] theorem push_requests (ts : List Task) : (push ts s).requests = s.requests := rfl
@[simp] theorem push_replies (ts : List Task) : (push ts s).replies = s.replies := rfl
@[simp] theorem push_resetIn (ts : List Task) : (push ts s).resetIn = s.resetIn := rfl
@[simp] theorem push_trace (ts : List Task) : (push ts s).trace = s.trace := rfl
@[simp] theorem push_results (ts : List Task) : (push ts s).results = s.results := rfl
@[simp] theorem push_draws (ts : List Task) : (push ts s).draws = s.draws := rfl

@[simp] theorem giveResult_cfg (k : ResultCode) : (giveResult k s).cfg = s.cfg := rfl
@[simp] theorem giveResult_cmd (k : ResultCode) : (giveResult k s).cmd = s.cmd := rfl
@[simp] theorem giveResult_rs (k : ResultCode) : (giveResult k s).rs = s.rs := rfl
@[simp] theorem giveResult_nib (k : ResultCode) : (giveResult k s).nib = s.nib := rfl
@[simp] theorem giveResult_row (k : ResultCode) : (giveResult k s).row = s.row := rfl
@[simp] theorem giveResult_col (k : ResultCode) : (giveResult k s).col = s.col := rfl
@[simp] theorem giveResult_addr (k : ResultCode) : (giveResult k s).addr = s.addr := rfl
@[simp] theorem giveResult_idx (k : ResultCode) : (giveResult k s).idx = s.idx := rfl
@[simp] theorem giveResult_len (k : ResultCode) : (giveResult k s).len = s.len := rfl
@[simp] theorem giveResult_upc (k : ResultCode) : (giveResult k s).upc = s.upc := rfl
@[simp] theorem giveResult_nwr (k : ResultCode) : (giveResult k s).nwr = s.nwr := rfl
@[simp] theorem giveResult_running (k : ResultCode) : (giveResult k s).running = s.running := rfl
@[simp] theorem giveResult_todo (k : ResultCode) : (giveResult k s).todo = s.todo := rfl
@[simp] theorem giveResult_fsm (k : ResultCode) : (giveResult k s).fsm = s.fsm := rfl
@[simp] theorem giveResult_istep (k : ResultCode) : (giveResult k s).istep = s.istep := rfl
@[simp] theorem giveResult_bl (k : ResultCode) : (giveResult k s).bl = s.bl := rfl
@[simp] theorem giveResult_busy (k : ResultCode) : (giveResult k s).busy = s.busy := rfl
@[simp] theorem giveResult_result (k : ResultCode) : (giveResult k s).result = { s.result with code := k } := rfl
@[simp] theorem giveResult_pins (k : ResultCode) : (giveResult k s).pins = s.pins := rfl
@[simp] theorem giveResult_txt (k : ResultCode) : (giveResult k s).txt = s.txt := rfl
@[simp] theorem giveResult_requests (k : ResultCode) : (giveResult k s).requests = s.requests := rfl
@[simp] theorem giveResult_replies (k : ResultCode) : (giveResult k s).replies = s.replies := rfl
@[simp] theorem giveResult_resetIn (k : ResultCode) : (giveResult k s).resetIn = s.resetIn := rfl
@[simp] theorem giveResult_trace (k : ResultCode) : (giveResult k s).trace = s.trace := rfl
@[simp] theorem giveResult_results (k : ResultCode) : (giveResult k s).results = s.results ++ [{ s.result with code := k }] := rfl
@[simp] theorem giveResult_draws (k : ResultCode) : (giveResult k s).draws = s.draws := rfl

@[simp] theorem refuse_cfg (k : ResultCode) : (refuse k s).cfg = s.cfg := rfl
@[simp] theorem refuse_cmd (k : ResultCode) : (refuse k s).cmd = s.cmd := rfl
@[simp] theorem refuse_rs (k : ResultCode) : (refuse k s).rs = s.rs := rfl
@[simp] theorem refuse_nib (k : ResultCode) : (refuse k s).nib = s.nib := rfl
@[simp] theorem refuse_row (k : ResultCode) : (refuse k s).row = s.row := rfl
@[simp] theorem refuse_col (k : ResultCode) : (refuse k s).col = s.col := rfl
@[simp] theorem refuse_addr (k : ResultCode) : (refuse k s).addr = s.addr := rfl
@[simp] theorem refuse_idx (k : ResultCode) : (refuse k s).idx = s.idx := rfl
@[simp] theorem refuse_len (k : ResultCode) : (refuse k s).len = s.len := rfl
@[simp] theorem refuse_upc (k : ResultCode) : (refuse k s).upc = s.upc := rfl
@[simp] theorem refuse_nwr (k : ResultCode) : (refuse k s).nwr = s.nwr := rfl
@[simp] theorem refuse_running (k : ResultCode) : (refuse k s).running = s.running := rfl
@[simp] theorem refuse_todo (k : ResultCode) : (refuse k s).todo = s.todo := rfl
@[simp] theorem refuse_fsm (k : ResultCode) : (refuse k s).fsm = s.fsm := rfl
@[simp] theorem refuse_istep (k : ResultCode) : (refuse k s).istep = s.istep := rfl
@[simp] theorem refuse_bl (k : ResultCode) : (refuse k s).bl = s.bl := rfl
@[simp] theorem refuse_busy (k : ResultCode) : (refuse k s).busy = s.busy := rfl
@[simp] theorem refuse_result (k : ResultCode) : (refuse k s).result = { s.result with code := k } := rfl
@[simp] theorem refuse_pins (k : ResultCode) : (refuse k s).pins = s.pins := rfl
@[simp] theorem refuse_txt (k : ResultCode) : (refuse k s).txt = s.txt := rfl
@[simp] theorem refuse_requests (k : ResultCode) : (refuse k s).requests = s.requests := rfl
@[simp] theorem refuse_replies (k : ResultCode) : (refuse k s).replies = s.replies := rfl
@[simp] theorem refuse_resetIn (k : ResultCode) : (refuse k s).resetIn = s.resetIn := rfl
@[simp] theorem refuse_trace (k : ResultCode) : (refuse k s).trace = s.trace := rfl
@[simp] theorem refuse_results (k : ResultCode) : (refuse k s).results = s.results ++ [{ s.result with code := k }] := rfl
@[simp] theorem refuse_draws (k : ResultCode) : (refuse k s).draws = s.draws := rfl

@[simp] theorem accept_cfg (j : Job) (prog : List Task) : (accept j prog s).cfg = s.cfg := rfl
@[simp] theorem accept_cmd (j : Job) (prog : List Task) : (accept j prog s).cmd = s.cmd := rfl
@[simp] theorem accept_rs (j : Job) (prog : List Task) : (accept j prog s).rs = s.rs := rfl
@[simp] theorem accept_nib (j : Job) (prog : List Task) : (accept j prog s).nib = s.nib := rfl
@[simp] theorem accept_row (j : Job) (prog : List Task) : (accept j prog s).row = s.row := rfl
@[simp] theorem accept_col (j : Job) (prog : List Task) : (accept j prog s).col = s.col := rfl
@[simp] theorem accept_addr (j : Job) (prog : List Task) : (accept j prog s).addr = s.addr := rfl
@[simp] theorem accept_idx (j : Job) (prog : List Task) : (accept j prog s).idx = s.idx := rfl
@[simp] theorem accept_len (j : Job) (prog : List Task) : (accept j prog s).len = s.len := rfl
@[simp] theorem accept_upc (j : Job) (prog : List Task) : (accept j prog s).upc = 0 := rfl
@[simp] theorem accept_nwr (j : Job) (prog : List Task) : (accept j prog s).nwr = 0 := rfl
@[simp] theorem accept_running (j : Job) (prog : List Task) : (accept j prog s).running = some j := rfl
@[simp] theorem accept_todo (j : Job) (prog : List Task) : (accept j prog s).todo = prog := rfl
@[simp] theorem accept_fsm (j : Job) (prog : List Task) : (accept j prog s).fsm = s.fsm := rfl
@[simp] theorem accept_istep (j : Job) (prog : List Task) : (accept j prog s).istep = s.istep := rfl
@[simp] theorem accept_bl (j : Job) (prog : List Task) : (accept j prog s).bl = s.bl := rfl
@[simp] theorem accept_busy (j : Job) (prog : List Task) : (accept j prog s).busy = true := rfl
@[simp] theorem accept_result (j : Job) (prog : List Task) : (accept j prog s).result = s.result := rfl
@[simp] theorem accept_pins (j : Job) (prog : List Task) : (accept j prog s).pins = s.pins := rfl
@[simp] theorem accept_txt (j : Job) (prog : List Task) : (accept j prog s).txt = s.txt := rfl
@[simp] theorem accept_requests (j : Job) (prog : List Task) : (accept j prog s).requests = s.requests := rfl
@[simp] theorem accept_replies (j : Job) (prog : List Task) : (accept j prog s).replies = s.replies := rfl
@[simp] theorem accept_resetIn (j : Job) (prog : List Task) : (accept j prog s).resetIn = s.resetIn := rfl
@[simp] theorem accept_trace (j : Job) (prog : List Task) : (accept j prog s).trace = s.trace := rfl
@[simp] theorem accept_results (j : Job) (prog : List Task) : (accept j prog s).results = s.results := rfl
@[simp] theorem accept_draws (j : Job) (prog : List Task) : (accept j prog s).draws = s.draws := rfl

@[simp] theorem release_cfg : (release s).cfg = s.cfg := rfl
@[simp] theorem release_cmd : (release s).cmd = s.cmd := rfl
@[simp] theorem release_rs : (release s).rs = s.rs := rfl
@[simp] theorem release_nib : (release s).nib = s.nib := rfl
@[simp] theorem release_row : (release s).row = s.row := rfl
@[simp] theorem release_col : (release s).col = s.col := rfl
@[simp] theorem release_addr : (release s).addr = s.addr := rfl
@[simp] theorem release_idx : (release s).idx = s.idx := rfl
@[simp] theorem release_len : (release s).len = s.len := rfl
@[simp] theorem release_upc : (release s).upc = s.upc := rfl
@[simp] theorem release_nwr : (release s).nwr = s.nwr := rfl
@[simp] theorem release_running : (release s).running = none := rfl
@[simp] theorem release_todo : (release s).todo = [] := rfl
@[simp] theorem release_fsm : (release s).fsm = s.fsm := rfl
@[simp] theorem release_istep : (release s).istep = s.istep := rfl
@[simp] theorem release_bl : (release s).bl = s.bl := rfl
@[simp] theorem release_busy : (release s).busy = false := rfl
@[simp] theorem release_result : (release s).result = s.result := rfl
@[simp] theorem release_pins : (release s).pins = s.pins := rfl
@[simp] theorem release_txt : (release s).txt = s.txt := rfl
@[simp] theorem release_requests : (release s).requests = s.requests := rfl
@[simp] theorem release_replies : (release s).replies = s.replies := rfl
@[simp] theorem release_resetIn : (release s).resetIn = s.resetIn := rfl
@[simp] theorem release_trace : (release s).trace = s.trace := rfl
@[simp] theorem release_results : (release s).results = s.results := rfl
@[simp] theorem release_draws : (release s).draws = s.draws := rfl

@[simp] theorem complete_cfg : (complete s).cfg = s.cfg := rfl
@[simp] theorem complete_cmd : (complete s).cmd = s.cmd := rfl
@[simp] theorem complete_rs : (complete s).rs = s.rs := rfl
@[simp] theorem complete_nib : (complete s).nib = s.nib := rfl
@[simp] theorem complete_row : (complete s).row = s.row := rfl
@[simp] theorem complete_col : (complete s).col = s.col := rfl
@[simp] theorem complete_addr : (complete s).addr = s.addr := rfl
@[simp] theorem complete_idx : (complete s).idx = s.idx := rfl
@[simp] theorem complete_len : (complete s).len = s.len := rfl
@[simp] theorem complete_upc : (complete s).upc = s.upc := rfl
@[simp] theorem complete_nwr : (complete s).nwr = s.nwr := rfl
@[simp] theorem complete_running : (complete s).running = none := rfl
@[simp] theorem complete_todo : (complete s).todo = [] := rfl
@[simp] theorem complete_fsm : (complete s).fsm = s.fsm := rfl
@[simp] theorem complete_istep : (complete s).istep = s.istep := rfl
@[simp] theorem complete_bl : (complete s).bl = s.bl := rfl
@[simp] theorem complete_busy : (complete s).busy = false := rfl
@[simp] theorem complete_result : (complete s).result = { s.result with code := .ok } := rfl
@[simp] theorem complete_pins : (complete s).pins = s.pins := rfl
@[simp] theorem complete_txt : (complete s).txt = s.txt := rfl
@[simp] theorem complete_requests : (complete s).requests = s.requests := rfl
@[simp] theorem complete_replies : (complete s).replies = s.replies := rfl
@[simp] theorem complete_resetIn : (complete s).resetIn = s.resetIn := rfl
@[simp] theorem complete_trace : (complete s).trace = s.trace := rfl
@[simp] theorem complete_results : (complete s).results = s.results ++ [{ s.result with code := .ok }] := rfl
@[simp] theorem complete_draws : (complete s).draws = s.draws := rfl

@[simp] theorem raiseIoFail_cfg (n : Nat) : (raiseIoFail n s).cfg = s.cfg := rfl
@[simp] theorem raiseIoFail_cmd (n : Nat) : (raiseIoFail n s).cmd = s.cmd := rfl
@[simp] theorem raiseIoFail_rs (n : Nat) : (raiseIoFail n s).rs = s.rs := rfl
@[simp] theorem raiseIoFail_nib (n : Nat) : (raiseIoFail n s).nib = s.nib := rfl
@[simp] theorem raiseIoFail_row (n : Nat) : (raiseIoFail n s).row = s.row := rfl
@[simp] theorem raiseIoFail_col (n : Nat) : (raiseIoFail n s).col = s.col := rfl
@[simp] theorem raiseIoFail_addr (n : Nat) : (raiseIoFail n s).addr = s.addr := rfl
@[simp] theorem raiseIoFail_idx (n : Nat) : (raiseIoFail n s).idx = s.idx := rfl
@[simp] theorem raiseIoFail_len (n : Nat) : (raiseIoFail n s).len = s.len := rfl
@[simp] theorem raiseIoFail_upc (n : Nat) : (raiseIoFail n s).upc = s.upc := rfl
@[simp] theorem raiseIoFail_nwr (n : Nat) : (raiseIoFail n s).nwr = s.nwr := rfl
@[simp] theorem raiseIoFail_running (n : Nat) : (raiseIoFail n s).running = none := rfl
@[simp] theorem raiseIoFail_todo (n : Nat) : (raiseIoFail n s).todo = [] := rfl
@[simp] theorem raiseIoFail_fsm (n : Nat) : (raiseIoFail n s).fsm = failFsm s.running s.fsm := rfl
@[simp] theorem raiseIoFail_istep (n : Nat) : (raiseIoFail n s).istep = s.istep := rfl
@[simp] theorem raiseIoFail_bl (n : Nat) : (raiseIoFail n s).bl = s.bl := rfl
@[simp] theorem raiseIoFail_busy (n : Nat) : (raiseIoFail n s).busy = false := rfl
@[simp] theorem raiseIoFail_result (n : Nat) : (raiseIoFail n s).result = ⟨failCode s.running, n⟩ := rfl
@[simp] theorem raiseIoFail_pins (n : Nat) : (raiseIoFail n s).pins = s.pins := rfl
@[simp] theorem raiseIoFail_txt (n : Nat) : (raiseIoFail n s).txt = s.txt := rfl
@[simp] theorem raiseIoFail_requests (n : Nat) : (raiseIoFail n s).requests = s.requests := rfl
@[simp] theorem raiseIoFail_replies (n : Nat) : (raiseIoFail n s).replies = s.replies := rfl
@[simp] theorem raiseIoFail_resetIn (n : Nat) : (raiseIoFail n s).resetIn = s.resetIn := rfl
@[simp] theorem raiseIoFail_trace (n : Nat) : (raiseIoFail n s).trace = s.trace := rfl
@[simp] theorem raiseIoFail_results (n : Nat) : (raiseIoFail n s).results = s.results ++ [⟨failCode s.running, n⟩] := rfl
@[simp] theorem raiseIoFail_draws (n : Nat) : (raiseIoFail n s).draws = s.draws := rfl

@[simp] theorem writeOk_cfg (b : Byte) : (writeOk b s).cfg = s.cfg := rfl
@[simp] theorem writeOk_cmd (b : Byte) : (writeOk b s).cmd = s.cmd := rfl
@[simp] theorem writeOk_rs (b : Byte) : (writeOk b s).rs = s.rs := rfl
@[simp] theorem writeOk_nib (b : Byte) : (writeOk b s).nib = s.nib := rfl
@[simp] theorem writeOk_row (b : Byte) : (writeOk b s).row = s.row := rfl
@[simp] theorem writeOk_col (b : Byte) : (writeOk b s).col = s.col := rfl
@[simp] theorem writeOk_addr (b : Byte) : (writeOk b s).addr = s.addr := rfl
@[simp] theorem writeOk_idx (b : Byte) : (writeOk b s).idx = s.idx := rfl
@[simp] theorem writeOk_len (b : Byte) : (writeOk b s).len = s.len := rfl
@[simp] theorem writeOk_upc (b : Byte) : (writeOk b s).upc = s.upc + 1 := rfl
@[simp] theorem writeOk_nwr (b : Byte) : (writeOk b s).nwr = s.nwr + 1 := rfl
@[simp] theorem writeOk_running (b : Byte) : (writeOk b s).running = s.running := rfl
@[simp] theorem writeOk_todo (b : Byte) : (writeOk b s).todo = s.todo := rfl
@[simp] theorem writeOk_fsm (b : Byte) : (writeOk b s).fsm = s.fsm := rfl
@[simp] theorem writeOk_istep (b : Byte) : (writeOk b s).istep = s.istep := rfl
@[simp] theorem writeOk_bl (b : Byte) : (writeOk b s).bl = s.bl := rfl
@[simp] theorem writeOk_busy (b : Byte) : (writeOk b s).busy = s.busy := rfl
@[simp] theorem writeOk_result (b : Byte) : (writeOk b s).result = s.result := rfl
@[simp] theorem writeOk_pins (b : Byte) : (writeOk b s).pins = b := rfl
@[simp] theorem writeOk_txt (b : Byte) : (writeOk b s).txt = s.txt := rfl
@[simp] theorem writeOk_requests (b : Byte) : (writeOk b s).requests = s.requests := rfl
@[simp] theorem writeOk_replies (b : Byte) : (writeOk b s).replies = s.replies := rfl
@[simp] theorem writeOk_resetIn (b : Byte) : (writeOk b s).resetIn = s.resetIn := rfl
@[simp] theorem writeOk_trace (b : Byte) : (writeOk b s).trace = s.trace ++ [.wr b .ok] := rfl
@[simp] theorem writeOk_results (b : Byte) : (writeOk b s).results = s.results := rfl
@[simp] theorem writeOk_draws (b : Byte) : (writeOk b s).draws = s.draws := rfl

@[simp] theorem writeFail_cfg (b : Byte) : (writeFail b s).cfg = s.cfg := rfl
@[simp] theorem writeFail_cmd (b : Byte) : (writeFail b s).cmd = s.cmd := rfl
@[simp] theorem writeFail_rs (b : Byte) : (writeFail b s).rs = s.rs := rfl
@[simp] theorem writeFail_nib (b : Byte) : (writeFail b s).nib = s.nib := rfl
@[simp] theorem writeFail_row (b : Byte) : (writeFail b s).row = s.row := rfl
@[simp] theorem writeFail_col (b : Byte) : (writeFail b s).col = s.col := rfl
@[simp] theorem writeFail_addr (b : Byte) : (writeFail b s).addr = s.addr := rfl
@[simp] theorem writeFail_idx (b : Byte) : (writeFail b s).idx = s.idx := rfl
@[simp] theorem writeFail_len (b : Byte) : (writeFail b s).len = s.len := rfl
@[simp] theorem writeFail_upc (b : Byte) : (writeFail b s).upc = s.upc := rfl
@[simp] theorem writeFail_nwr (b : Byte) : (writeFail b s).nwr = s.nwr := rfl
@[simp] theorem writeFail_running (b : Byte) : (writeFail b s).running = none := rfl
@[simp] theorem writeFail_todo (b : Byte) : (writeFail b s).todo = [] := rfl
@[simp] theorem writeFail_fsm (b : Byte) : (writeFail b s).fsm = failFsm s.running s.fsm := rfl
@[simp] theorem writeFail_istep (b : Byte) : (writeFail b s).istep = s.istep := rfl
@[simp] theorem writeFail_bl (b : Byte) : (writeFail b s).bl = s.bl := rfl
@[simp] theorem writeFail_busy (b : Byte) : (writeFail b s).busy = false := rfl
@[simp] theorem writeFail_result (b : Byte) : (writeFail b s).result = ⟨failCode s.running, s.nwr⟩ := rfl
@[simp] theorem writeFail_pins (b : Byte) : (writeFail b s).pins = Config.freeByte s.draws := rfl
@[simp] theorem writeFail_txt (b : Byte) : (writeFail b s).txt = s.txt := rfl
@[simp] theorem writeFail_requests (b : Byte) : (writeFail b s).requests = s.requests := rfl
@[simp] theorem writeFail_replies (b : Byte) : (writeFail b s).replies = s.replies := rfl
@[simp] theorem writeFail_resetIn (b : Byte) : (writeFail b s).resetIn = s.resetIn := rfl
@[simp] theorem writeFail_trace (b : Byte) : (writeFail b s).trace = s.trace ++ [.wr b .fail] := rfl
@[simp] theorem writeFail_results (b : Byte) : (writeFail b s).results = s.results ++ [⟨failCode s.running, s.nwr⟩] := rfl
@[simp] theorem writeFail_draws (b : Byte) : (writeFail b s).draws = s.draws + 1 := rfl

@[simp] theorem delay_cfg (k : DelayClass) : (delay k s).cfg = s.cfg := rfl
@[simp] theorem delay_cmd (k : DelayClass) : (delay k s).cmd = s.cmd := rfl
@[simp] theorem delay_rs (k : DelayClass) : (delay k s).rs = s.rs := rfl
@[simp] theorem delay_nib (k : DelayClass) : (delay k s).nib = s.nib := rfl
@[simp] theorem delay_row (k : DelayClass) : (delay k s).row = s.row := rfl
@[simp] theorem delay_col (k : DelayClass) : (delay k s).col = s.col := rfl
@[simp] theorem delay_addr (k : DelayClass) : (delay k s).addr = s.addr := rfl
@[simp] theorem delay_idx (k : DelayClass) : (delay k s).idx = s.idx := rfl
@[simp] theorem delay_len (k : DelayClass) : (delay k s).len = s.len := rfl
@[simp] theorem delay_upc (k : DelayClass) : (delay k s).upc = s.upc + 1 := rfl
@[simp] theorem delay_nwr (k : DelayClass) : (delay k s).nwr = s.nwr := rfl
@[simp] theorem delay_running (k : DelayClass) : (delay k s).running = s.running := rfl
@[simp] theorem delay_todo (k : DelayClass) : (delay k s).todo = s.todo := rfl
@[simp] theorem delay_fsm (k : DelayClass) : (delay k s).fsm = s.fsm := rfl
@[simp] theorem delay_istep (k : DelayClass) : (delay k s).istep = s.istep := rfl
@[simp] theorem delay_bl (k : DelayClass) : (delay k s).bl = s.bl := rfl
@[simp] theorem delay_busy (k : DelayClass) : (delay k s).busy = s.busy := rfl
@[simp] theorem delay_result (k : DelayClass) : (delay k s).result = s.result := rfl
@[simp] theorem delay_pins (k : DelayClass) : (delay k s).pins = s.pins := rfl
@[simp] theorem delay_txt (k : DelayClass) : (delay k s).txt = s.txt := rfl
@[simp] theorem delay_requests (k : DelayClass) : (delay k s).requests = s.requests := rfl
@[simp] theorem delay_replies (k : DelayClass) : (delay k s).replies = s.replies := rfl
@[simp] theorem delay_resetIn (k : DelayClass) : (delay k s).resetIn = s.resetIn := rfl
@[simp] theorem delay_trace (k : DelayClass) : (delay k s).trace = s.trace ++ [.wait k] := rfl
@[simp] theorem delay_results (k : DelayClass) : (delay k s).results = s.results := rfl
@[simp] theorem delay_draws (k : DelayClass) : (delay k s).draws = s.draws := rfl

@[simp] theorem setInitStep_cfg (n : Fin 10) : (setInitStep n s).cfg = s.cfg := rfl
@[simp] theorem setInitStep_cmd (n : Fin 10) : (setInitStep n s).cmd = s.cmd := rfl
@[simp] theorem setInitStep_rs (n : Fin 10) : (setInitStep n s).rs = s.rs := rfl
@[simp] theorem setInitStep_nib (n : Fin 10) : (setInitStep n s).nib = s.nib := rfl
@[simp] theorem setInitStep_row (n : Fin 10) : (setInitStep n s).row = s.row := rfl
@[simp] theorem setInitStep_col (n : Fin 10) : (setInitStep n s).col = s.col := rfl
@[simp] theorem setInitStep_addr (n : Fin 10) : (setInitStep n s).addr = s.addr := rfl
@[simp] theorem setInitStep_idx (n : Fin 10) : (setInitStep n s).idx = s.idx := rfl
@[simp] theorem setInitStep_len (n : Fin 10) : (setInitStep n s).len = s.len := rfl
@[simp] theorem setInitStep_upc (n : Fin 10) : (setInitStep n s).upc = s.upc := rfl
@[simp] theorem setInitStep_nwr (n : Fin 10) : (setInitStep n s).nwr = s.nwr := rfl
@[simp] theorem setInitStep_running (n : Fin 10) : (setInitStep n s).running = s.running := rfl
@[simp] theorem setInitStep_todo (n : Fin 10) : (setInitStep n s).todo = s.todo := rfl
@[simp] theorem setInitStep_fsm (n : Fin 10) : (setInitStep n s).fsm = Fsm.ofStep n := rfl
@[simp] theorem setInitStep_istep (n : Fin 10) : (setInitStep n s).istep = n := rfl
@[simp] theorem setInitStep_bl (n : Fin 10) : (setInitStep n s).bl = s.bl := rfl
@[simp] theorem setInitStep_busy (n : Fin 10) : (setInitStep n s).busy = s.busy := rfl
@[simp] theorem setInitStep_result (n : Fin 10) : (setInitStep n s).result = s.result := rfl
@[simp] theorem setInitStep_pins (n : Fin 10) : (setInitStep n s).pins = s.pins := rfl
@[simp] theorem setInitStep_txt (n : Fin 10) : (setInitStep n s).txt = s.txt := rfl
@[simp] theorem setInitStep_requests (n : Fin 10) : (setInitStep n s).requests = s.requests := rfl
@[simp] theorem setInitStep_replies (n : Fin 10) : (setInitStep n s).replies = s.replies := rfl
@[simp] theorem setInitStep_resetIn (n : Fin 10) : (setInitStep n s).resetIn = s.resetIn := rfl
@[simp] theorem setInitStep_trace (n : Fin 10) : (setInitStep n s).trace = s.trace := rfl
@[simp] theorem setInitStep_results (n : Fin 10) : (setInitStep n s).results = s.results := rfl
@[simp] theorem setInitStep_draws (n : Fin 10) : (setInitStep n s).draws = s.draws := rfl

@[simp] theorem takeRequest_cfg (r : Request) (rest : List Request) : (takeRequest r rest s).cfg = s.cfg := rfl
@[simp] theorem takeRequest_cmd (r : Request) (rest : List Request) : (takeRequest r rest s).cmd = s.cmd := rfl
@[simp] theorem takeRequest_rs (r : Request) (rest : List Request) : (takeRequest r rest s).rs = s.rs := rfl
@[simp] theorem takeRequest_nib (r : Request) (rest : List Request) : (takeRequest r rest s).nib = s.nib := rfl
@[simp] theorem takeRequest_row (r : Request) (rest : List Request) : (takeRequest r rest s).row = s.row := rfl
@[simp] theorem takeRequest_col (r : Request) (rest : List Request) : (takeRequest r rest s).col = s.col := rfl
@[simp] theorem takeRequest_addr (r : Request) (rest : List Request) : (takeRequest r rest s).addr = s.addr := rfl
@[simp] theorem takeRequest_idx (r : Request) (rest : List Request) : (takeRequest r rest s).idx = s.idx := rfl
@[simp] theorem takeRequest_len (r : Request) (rest : List Request) : (takeRequest r rest s).len = s.len := rfl
@[simp] theorem takeRequest_upc (r : Request) (rest : List Request) : (takeRequest r rest s).upc = s.upc := rfl
@[simp] theorem takeRequest_nwr (r : Request) (rest : List Request) : (takeRequest r rest s).nwr = s.nwr := rfl
@[simp] theorem takeRequest_running (r : Request) (rest : List Request) : (takeRequest r rest s).running = s.running := rfl
@[simp] theorem takeRequest_todo (r : Request) (rest : List Request) : (takeRequest r rest s).todo = s.todo := rfl
@[simp] theorem takeRequest_fsm (r : Request) (rest : List Request) : (takeRequest r rest s).fsm = s.fsm := rfl
@[simp] theorem takeRequest_istep (r : Request) (rest : List Request) : (takeRequest r rest s).istep = s.istep := rfl
@[simp] theorem takeRequest_bl (r : Request) (rest : List Request) : (takeRequest r rest s).bl = s.bl := rfl
@[simp] theorem takeRequest_busy (r : Request) (rest : List Request) : (takeRequest r rest s).busy = s.busy := rfl
@[simp] theorem takeRequest_result (r : Request) (rest : List Request) : (takeRequest r rest s).result = s.result := rfl
@[simp] theorem takeRequest_pins (r : Request) (rest : List Request) : (takeRequest r rest s).pins = s.pins := rfl
@[simp] theorem takeRequest_txt (r : Request) (rest : List Request) : (takeRequest r rest s).txt = Memory.ofBytes r.text := rfl
@[simp] theorem takeRequest_requests (r : Request) (rest : List Request) : (takeRequest r rest s).requests = rest := rfl
@[simp] theorem takeRequest_replies (r : Request) (rest : List Request) : (takeRequest r rest s).replies = s.replies := rfl
@[simp] theorem takeRequest_resetIn (r : Request) (rest : List Request) : (takeRequest r rest s).resetIn = s.resetIn := rfl
@[simp] theorem takeRequest_trace (r : Request) (rest : List Request) : (takeRequest r rest s).trace = s.trace := rfl
@[simp] theorem takeRequest_results (r : Request) (rest : List Request) : (takeRequest r rest s).results = s.results := rfl
@[simp] theorem takeRequest_draws (r : Request) (rest : List Request) : (takeRequest r rest s).draws = s.draws := rfl

@[simp] theorem applyReset_cfg : (applyReset s).cfg = s.cfg := rfl
@[simp] theorem applyReset_upc : (applyReset s).upc = 0 := rfl
@[simp] theorem applyReset_nwr : (applyReset s).nwr = 0 := rfl
@[simp] theorem applyReset_running : (applyReset s).running = none := rfl
@[simp] theorem applyReset_todo : (applyReset s).todo = [] := rfl
@[simp] theorem applyReset_fsm : (applyReset s).fsm = .poweredUnknown := rfl
@[simp] theorem applyReset_istep : (applyReset s).istep = 0 := rfl
@[simp] theorem applyReset_bl : (applyReset s).bl = true := rfl
@[simp] theorem applyReset_busy : (applyReset s).busy = false := rfl
@[simp] theorem applyReset_result : (applyReset s).result = ⟨.ok, 0⟩ := rfl
@[simp] theorem applyReset_pins : (applyReset s).pins = s.pins := rfl
@[simp] theorem applyReset_txt : (applyReset s).txt = s.txt := rfl
@[simp] theorem applyReset_requests : (applyReset s).requests = s.requests := rfl
@[simp] theorem applyReset_replies : (applyReset s).replies = s.replies := rfl
@[simp] theorem applyReset_resetIn : (applyReset s).resetIn = s.resetIn := rfl
@[simp] theorem applyReset_trace : (applyReset s).trace = s.trace := rfl
@[simp] theorem applyReset_results : (applyReset s).results = s.results := rfl
@[simp] theorem applyReset_draws : (applyReset s).draws = s.draws + 8 := rfl

end Sys2Proof.Machine
end

