-- ==== Sys2Proof/Laws/Ops.lean ====
section
/-! SUPPORT. What each shared operation can do, said once: the proofs cite these and do not unfold the operations. -/

namespace Sys2Proof.Machine

/-- What a draw from the transport touches. -/
theorem takeReply_cases (s : State) :
    (∃ r rest, s.replies = r :: rest ∧ takeReply s = (r, { s with replies := rest })) ∨
      (s.replies = [] ∧ takeReply s = (some (Config.freeReply s.draws), { s with draws := s.draws + 1 })) := by
  unfold takeReply
  split
  · next h => exact .inr ⟨h, rfl⟩
  · next r rest h => exact .inl ⟨r, rest, h, rfl⟩

/-- A bus write that goes on: the state after the draw, then the end of an answered or of a failed write. -/
theorem busWrite_next {b : Byte} {s t : State} (h : busWrite b s = .next t) :
    ∃ r u, takeReply s = (some r, u) ∧ t = settleWrite b r u := by
  unfold busWrite at h
  split at h
  · next r u hu => exact ⟨r, u, hu, (Host.Outcome.next.inj h).symm⟩
  · cases h

/-- A bus write that goes on, in one disjunction: the transport's answers and the draws have moved, and the write is answered
`ok` or has failed. -/
theorem busWrite_cases {b : Byte} {s t : State} (h : busWrite b s = .next t) :
    ∃ rs d, t = writeOk b { s with replies := rs, draws := d } ∨ t = writeFail b { s with replies := rs, draws := d } := by
  obtain ⟨r, u, hu, rfl⟩ := busWrite_next h
  obtain ⟨r', rest, -, ht⟩ | ⟨-, ht⟩ := takeReply_cases s <;> rw [hu, Prod.mk.injEq] at ht
  · refine ⟨rest, s.draws, ?_⟩
    rw [ht.2]
    cases r <;> simp [settleWrite]
  · refine ⟨s.replies, s.draws + 1, ?_⟩
    rw [ht.2]
    cases r <;> simp [settleWrite]

/-- A bus write stops only where its answer never comes. -/
theorem busWrite_fault {b : Byte} {s : State} {f : Fault} (h : busWrite b s = .fault f) :
    f = .transportHang ∧ ∃ rest, s.replies = none :: rest := by
  unfold busWrite at h
  split at h
  · cases h
  · next u hu =>
    refine ⟨(Host.Outcome.fault.inj h).symm, ?_⟩
    obtain ⟨r, rest, hr, ht⟩ | ⟨-, ht⟩ := takeReply_cases s
    · rw [hu, Prod.mk.injEq] at ht
      exact ⟨rest, by rw [hr, ← ht.1]⟩
    · rw [hu, Prod.mk.injEq] at ht
      exact absurd ht.1 (by simp)

theorem busWrite_not_refused (b : Byte) (s : State) (r : Refusal) : busWrite b s ≠ .refused r := by
  unfold busWrite
  split <;> simp

/-- A bus write whose listed answer is `ok`. -/
theorem busWrite_ok (b : Byte) {s : State} {rest : List (Option Reply)} (h : s.replies = some .ok :: rest) :
    busWrite b s = .next (writeOk b { s with replies := rest }) := by simp [busWrite, takeReply, h, settleWrite]

/-- A bus write whose listed answer is `fail`. -/
theorem busWrite_fail (b : Byte) {s : State} {rest : List (Option Reply)} (h : s.replies = some .fail :: rest) :
    busWrite b s = .next (writeFail b { s with replies := rest }) := by simp [busWrite, takeReply, h, settleWrite]

/-- A bus write whose listed answer never comes. -/
theorem busWrite_hang (b : Byte) {s : State} {rest : List (Option Reply)} (h : s.replies = none :: rest) :
    busWrite b s = .fault .transportHang := by simp [busWrite, takeReply, h]

/-- A bus write for which no answer is listed: one free draw decides. -/
theorem busWrite_free (b : Byte) {s : State} (h : s.replies = []) :
    busWrite b s = .next (settleWrite b (Config.freeReply s.draws) { s with draws := s.draws + 1 }) := by
  simp [busWrite, takeReply, h]

/-- The test of WRSTR's loop, when it goes on. -/
theorem textLoopStep_next {rest : List Task} {s t : State} (h : textLoopStep rest s = .next t) :
    (s.idx < s.len ∧ ∃ b, Memory.read s.txt s.idx = some b ∧
      t = { s with todo := .op (.wrdata b) :: .textNext :: rest }) ∨
      (¬ s.idx < s.len ∧ t = { s with todo := rest }) := by
  unfold textLoopStep at h
  split at h
  · next hlt =>
    split at h
    · next b hb => exact .inl ⟨hlt, b, hb, (Host.Outcome.next.inj h).symm⟩
    · cases h
  · next hlt => exact .inr ⟨hlt, (Host.Outcome.next.inj h).symm⟩

end Sys2Proof.Machine
end

