-- ==== Sys2Proof/Laws/Step.lean ====
section
/-! SUPPORT. The step and runs of steps: one equation for each way the next operation is found, and the composition of runs. -/

namespace Sys2Proof.Machine

variable {s t u : State}

/-- With the reset line low and a task in the sequencer, the step is that task. -/
theorem step_of_task {x : Task} {rest : List Task} (hr : s.resetIn = []) (h : s.todo = x :: rest) :
    step s = taskStep exec x rest s := by simp [step, stepWith, hr, advance, h]

/-- The step of a sequencer whose head is an operation is the operation. -/
theorem step_of_op {i : Instr} {rest : List Task} (hr : s.resetIn = []) (h : s.todo = .op i :: rest) :
    step s = exec i { s with todo := rest } := by rw [step_of_task hr h]; rfl

/-- With nothing left to do the running request ends. -/
theorem step_of_done (hr : s.resetIn = []) (h : s.todo = []) (hb : s.busy = true) :
    step s = .next (complete s) := by simp [step, stepWith, hr, advance, h, hb]

/-- An idle block looks at its port. -/
theorem step_of_idle (hr : s.resetIn = []) (h : s.todo = []) (hb : s.busy = false) :
    step s = portStep exec s := by simp [step, stepWith, hr, advance, h, hb]

/-- The reset line. -/
theorem step_of_reset {later : List Bool} (h : s.resetIn = true :: later) :
    step s = .next (applyReset { s with resetIn := later }) := by simp [step, stepWith, h]

/-- A low reset line is used up and changes nothing else. -/
theorem step_of_low {later : List Bool} (h : s.resetIn = false :: later) :
    step s = advance exec { s with resetIn := later } := by simp [step, stepWith, h]

/-- Everything a step of the block does with the reset line low, by what stands at the head of the sequencer and, where nothing
does, by what the idle block finds at its port. -/
theorem advance_cases (h : advance exec s = .next t) :
    (∃ i rest, s.todo = .op i :: rest ∧ exec i { s with todo := rest } = .next t) ∨
    (∃ n rest, s.todo = .initStep n :: rest ∧ t = setInitStep n { s with todo := rest }) ∨
    (∃ rest b, s.todo = .textLoop :: rest ∧ s.idx < s.len ∧ Memory.read s.txt s.idx = some b ∧
      t = { s with todo := .op (.wrdata b) :: .textNext :: rest }) ∨
    (∃ rest, s.todo = .textLoop :: rest ∧ ¬ s.idx < s.len ∧ t = { s with todo := rest }) ∨
    (∃ rest, s.todo = .textNext :: rest ∧ t = { s with idx := s.idx + 1, todo := .textLoop :: rest }) ∨
    (s.todo = [] ∧ s.busy = true ∧ t = complete s) ∨
    (s.todo = [] ∧ s.busy = false ∧ s.requests = [] ∧ t = s) ∨
    (∃ r rest i, s.todo = [] ∧ s.busy = false ∧ s.requests = r :: rest ∧ decodePort r = some i ∧
      exec i (takeRequest r rest s) = .next t) ∨
    (∃ r rest, s.todo = [] ∧ s.busy = false ∧ s.requests = r :: rest ∧ decodePort r = none ∧
      t = refuse .badOp (takeRequest r rest s)) := by
  unfold advance at h
  split at h
  · next x rest hx =>
    cases x with
    | op i => exact .inl ⟨i, rest, hx, h⟩
    | initStep n => exact .inr (.inl ⟨n, rest, hx, (Host.Outcome.next.inj h).symm⟩)
    | textLoop =>
      obtain ⟨h1, b, h2, h3⟩ | ⟨h1, h2⟩ := textLoopStep_next h
      · exact .inr (.inr (.inl ⟨rest, b, hx, h1, h2, h3⟩))
      · exact .inr (.inr (.inr (.inl ⟨rest, hx, h1, h2⟩)))
    | textNext => exact .inr (.inr (.inr (.inr (.inl ⟨rest, hx, (Host.Outcome.next.inj h).symm⟩))))
  · next hx =>
    refine .inr (.inr (.inr (.inr (.inr ?_))))
    split at h
    · next hb => exact .inl ⟨hx, hb, (Host.Outcome.next.inj h).symm⟩
    · next hb =>
      have hb : s.busy = false := by simpa using hb
      unfold portStep at h
      split at h
      · next hq => exact .inr (.inl ⟨hx, hb, hq, (Host.Outcome.next.inj h).symm⟩)
      · next r rest hq =>
        split at h
        · next i hi => exact .inr (.inr (.inl ⟨r, rest, i, hx, hb, hq, hi, h⟩))
        · next hi => exact .inr (.inr (.inr ⟨r, rest, hx, hb, hq, hi, (Host.Outcome.next.inj h).symm⟩))

/-- A step is the reset line, or a step of the block after the low level `l` of the line, if one is listed, is used up. -/
theorem step_cases (h : step s = .next t) :
    (∃ later, s.resetIn = true :: later ∧ t = applyReset { s with resetIn := later }) ∨
    (∃ l, (s.resetIn = [] ∧ l = [] ∨ s.resetIn = false :: l) ∧ advance exec { s with resetIn := l } = .next t) := by
  unfold step stepWith at h
  split at h
  · next l hl => exact .inl ⟨l, hl, (Host.Outcome.next.inj h).symm⟩
  · next l hl => exact .inr ⟨l, .inr hl, h⟩
  · next hl =>
    refine .inr ⟨[], .inl ⟨hl, rfl⟩, ?_⟩
    rw [← hl]
    exact h

@[simp] theorem steps_zero (s : State) : steps 0 s = .next s := rfl

/-- One step, then the rest of a run. -/
theorem steps_succ_of_next {n : Nat} (h : step s = .next t) : steps (n + 1) s = steps n t := by simp [steps, h]

/-- Runs compose. -/
theorem steps_add {m n : Nat} (h : steps m s = .next t) : steps (m + n) s = steps n t := by
  induction m generalizing s with
  | zero =>
    rw [steps_zero, Host.Outcome.next.injEq] at h
    rw [Nat.zero_add, h]
  | succ m ih =>
    rw [Nat.succ_add]
    cases hs : step s with
    | next v =>
      rw [steps_succ_of_next hs] at h ⊢
      exact ih h
    | fault f => rw [steps, hs] at h; cases h
    | refused r => rw [steps, hs] at h; cases h

/-- Runs compose, as next states. -/
theorem steps_trans {m n : Nat} (h₁ : steps m s = .next t) (h₂ : steps n t = .next u) : steps (m + n) s = .next u := by
  rw [steps_add h₁, h₂]

/-- A step and then a run. -/
theorem steps_head {n : Nat} (h₁ : step s = .next t) (h₂ : steps n t = .next u) : steps (n + 1) s = .next u := by
  rw [steps_succ_of_next h₁, h₂]

end Sys2Proof.Machine
end

