-- ==== Sys2Proof/Laws/Exec.lean ====
section
/-! SUPPORT. What one operation can do, said once: an operation that stands for an expansion loads its registers and puts its
tasks before the sequencer; a bus operation writes or fails; a request is accepted, refused or not taken. -/

namespace Sys2Proof.Machine

/-- What a request can do: nothing (busy), be refused, or be accepted with its program. -/
theorem execInit_cases (s : State) :
    (s.busy = true ∧ execInit s = .next s) ∨
      (s.busy = false ∧ s.fsm ≠ .poweredUnknown ∧ execInit s = .next (refuse .badState s)) ∨
      (s.busy = false ∧ s.fsm = .poweredUnknown ∧
        execInit s = .next (accept .init (initProgram s.cfg) { s with istep := 0 })) := by
  cases hb : s.busy <;> cases hf : s.fsm <;> simp [execInit, hb, hf, Fsm.admits]

theorem execClear_cases (s : State) :
    (s.busy = true ∧ execClear s = .next s) ∨
      (s.busy = false ∧ s.fsm ≠ .ready ∧ execClear s = .next (refuse .badState s)) ∨
      (s.busy = false ∧ s.fsm = .ready ∧ execClear s = .next (accept .clear (clearProgram s.cfg) s)) := by
  cases hb : s.busy <;> cases hf : s.fsm <;> simp [execClear, hb, hf, Fsm.admits]

theorem execWrstr_cases (row col : Byte) (s : State) :
    (s.busy = true ∧ execWrstr row col s = .next s) ∨
      (s.busy = false ∧ s.fsm ≠ .ready ∧ execWrstr row col s = .next (refuse .badState s)) ∨
      (s.busy = false ∧ s.fsm = .ready ∧ addrByte s.cfg row col = none ∧
        execWrstr row col s = .next (refuse .badRow s)) ∨
      (s.busy = false ∧ s.fsm = .ready ∧ ∃ a, addrByte s.cfg row col = some a ∧
        execWrstr row col s = .next (accept .wrstr (wrstrProgram row col)
          { s with row := row, col := col, len := Memory.size s.txt, idx := 0 })) := by
  cases ha : addrByte s.cfg row col <;> cases hb : s.busy <;> cases hf : s.fsm <;>
    simp [execWrstr, ha, hb, hf, Fsm.admits]

theorem execSetaddr_cases (row col : Byte) (s : State) :
    (addrByte s.cfg row col = none ∧ execSetaddr row col s = .next (refuse .badRow s)) ∨
      (∃ a, addrByte s.cfg row col = some a ∧
        execSetaddr row col s = .next (push [.op (.sendbyte a false)] { s with addr := a })) := by
  cases ha : addrByte s.cfg row col <;> simp [execSetaddr, ha]

/-- No operation is refused by the dispatcher. -/
theorem exec_not_refused (i : Instr) (s : State) (r : Refusal) : exec i s ≠ .refused r := by
  cases i <;> simp only [exec, execBuswr, execWait, execEh, execEl, execStrobe, execBootnib, execSendbyte, execCmdClear,
    execCmdHome, execCmdEntry, execCmdDispctl, execCmdFuncset, execCmdSetddram, execData, execWrdata, sendWhole]
  case init => obtain ⟨-, h⟩ | ⟨-, -, h⟩ | ⟨-, -, h⟩ := execInit_cases s <;> simp [h]
  case clear => obtain ⟨-, h⟩ | ⟨-, -, h⟩ | ⟨-, -, h⟩ := execClear_cases s <;> simp [h]
  case wrstr row col =>
    obtain ⟨-, h⟩ | ⟨-, -, h⟩ | ⟨-, -, -, h⟩ | ⟨-, -, a, -, h⟩ := execWrstr_cases row col s <;> simp [h]
  case setaddr row col => obtain ⟨-, h⟩ | ⟨a, -, h⟩ := execSetaddr_cases row col s <;> simp [h]
  case buswr b => exact busWrite_not_refused _ _ _
  case eh d q => exact busWrite_not_refused _ _ _
  case el d q => exact busWrite_not_refused _ _ _
  all_goals simp

end Sys2Proof.Machine
end

