-- ==== Sys2Proof/Laws/Expansion.lean ====
section
/-! SUPPORT. The sequencer against the expansions: what an operation that is no request does to the tasks, and on which
registers the primitives still to run depend. -/

namespace Sys2Proof.Machine

/-- What an operation replaced by its expansion leaves as it was. -/
def Quiet (s t : State) : Prop :=
  sameOutside s t ∧ t.txt = s.txt ∧ sameControl s t ∧ sameBus s t ∧ t.row = s.row ∧ t.col = s.col ∧ t.idx = s.idx ∧
    t.len = s.len

/-- An operation that is no request is one bus write, one delay, or is replaced by operations with the same expansion. -/
theorem inner_exec (i : Instr) (s : State) (hi : (Task.op i).isInner s.cfg = true) :
    (∃ b, Expand.instr s.cfg s.bl [] i = [.buswr b] ∧ exec i s = busWrite b s) ∨
    (∃ k, Expand.instr s.cfg s.bl [] i = [.wait k] ∧ exec i s = .next (delay k s)) ∨
    (∃ front t, exec i s = .next t ∧ t.todo = front ++ s.todo ∧ (∀ x ∈ front, x.isInner s.cfg = true) ∧
      Expand.instr s.cfg s.bl [] i = front.flatMap (taskPrims s) ∧ Quiet s t) := by
  cases i <;> simp [Task.isInner, Instr.isRequest] at hi
  case buswr b => exact .inl ⟨b, rfl, rfl⟩
  case eh d r => exact .inl ⟨_, rfl, rfl⟩
  case el d r => exact .inl ⟨_, rfl, rfl⟩
  case wait k => exact .inr (.inl ⟨k, rfl, rfl⟩)
  case setaddr row col =>
    obtain ⟨e1, e⟩ | ⟨a, e1, e⟩ := execSetaddr_cases row col s
    · simp [e1] at hi
    · refine .inr (.inr ⟨_, _, e, rfl, ?_, ?_, ?_⟩)
      · intro t ht; simp at ht; subst ht; rfl
      · simp [Expand.instr, Expand.setaddr, e1, taskPrims]
      · simp [Quiet, sameOutside, sameControl, sameBus]
  case bootnib v =>
    refine .inr (.inr ⟨_, _, rfl, rfl, ?_, ?_, ?_⟩)
    · intro t ht
      cases hf : s.cfg.bootForm <;> simp [bootTasks, hf] at ht
      · subst ht; rfl
      · subst ht; rfl
      · obtain rfl | rfl := ht <;> rfl
    · cases hf : s.cfg.bootForm <;> simp [Expand.instr, Expand.bootnib, bootTasks, taskPrims, hf]
    · simp [Quiet, sameOutside, sameControl, sameBus]
  case strobe n =>
    refine .inr (.inr ⟨_, _, rfl, rfl, ?_, ?_, ?_⟩)
    · intro t ht; simp [strobeTasks] at ht; rcases ht with rfl | rfl | rfl | rfl | rfl | rfl <;> rfl
    · simp [Expand.instr, Expand.strobe, strobeTasks, taskPrims]
    · simp [Quiet, sameOutside, sameControl, sameBus]
  case sendbyte n =>
    refine .inr (.inr ⟨_, _, rfl, rfl, ?_, ?_, ?_⟩)
    · intro t ht; simp [sendTasks] at ht; rcases ht with rfl | rfl <;> rfl
    · simp [Expand.instr, Expand.sendbyte, sendTasks, taskPrims]
    · simp [Quiet, sameOutside, sameControl, sameBus]
  all_goals
    refine .inr (.inr ⟨_, _, rfl, rfl, ?_, ?_, ?_⟩)
    · intro t ht; simp at ht; subst ht; rfl
    · simp [Expand.instr, taskPrims]
    · simp [Quiet, sameOutside, sameControl, sameBus]

/-- The primitives of a task depend on the parameters, the backlight, the text and the place in it. -/
theorem taskPrims_congr {s t : State} (h1 : t.cfg = s.cfg) (h2 : t.bl = s.bl) (h3 : t.txt = s.txt) (h4 : t.idx = s.idx)
    (h5 : t.len = s.len) : taskPrims t = taskPrims s := by
  funext x; cases x <;> simp [taskPrims, textFrom, h1, h2, h3, h4, h5]

/-- The expansion of the running request depends on the operands of the request, and not on where in it the block is. -/
theorem expansion_congr {s t : State} (h1 : t.cfg = s.cfg) (h2 : t.bl = s.bl) (h3 : t.txt = s.txt) (h4 : t.len = s.len)
    (h5 : t.row = s.row) (h6 : t.col = s.col) (h7 : t.running = s.running) : expansion t = expansion s := by
  simp only [expansion, textFrom, h1, h2, h3, h4, h5, h6, h7]

end Sys2Proof.Machine
end

