-- ==== Sys2Proof/Laws/Memory.lean ====
section
/-! SUPPORT. The `TXT` memory: its one operation, the loading of a text, gives the canonical form, and so do the states that
hold it. -/

namespace Sys2Proof.Machine

@[simp] theorem Memory.read_nil (a : Nat) : Memory.read [] a = none := rfl

@[simp] theorem Memory.read_cons (c : Host.Cell) (m : Memory) (a : Nat) :
    Memory.read (c :: m) a = if c.1 = a then some c.2 else Memory.read m a := rfl

@[simp] theorem Memory.ofBytesFrom_nil (a : Nat) : Memory.ofBytesFrom a [] = [] := rfl

@[simp] theorem Memory.ofBytesFrom_cons (a : Nat) (b : Byte) (bs : List Byte) :
    Memory.ofBytesFrom a (b :: bs) = (a, b) :: Memory.ofBytesFrom (a + 1) bs := rfl

theorem Memory.ofBytesFrom_length (bs : List Byte) : ∀ a, (Memory.ofBytesFrom a bs).length = bs.length := by
  induction bs with
  | nil => intro a; rfl
  | cons b bs ih => intro a; simp [ih]

@[simp] theorem Memory.size_ofBytes (bs : List Byte) : Memory.size (Memory.ofBytes bs) = bs.length :=
  Memory.ofBytesFrom_length bs 0

/-- Every location of a loaded text lies at or above its first address. -/
theorem Memory.ofBytesFrom_ge (bs : List Byte) : ∀ a, ∀ c ∈ Memory.ofBytesFrom a bs, a ≤ c.1 := by
  induction bs with
  | nil => intro a c h; simp at h
  | cons b bs ih =>
    intro a c h
    rw [Memory.ofBytesFrom_cons, List.mem_cons] at h
    obtain rfl | h := h
    · exact le_refl _
    · exact le_trans (Nat.le_succ a) (ih (a + 1) c h)

theorem Memory.wf_ofBytesFrom (bs : List Byte) : ∀ a, Memory.wf (Memory.ofBytesFrom a bs) := by
  induction bs with
  | nil => intro a; exact List.Pairwise.nil
  | cons b bs ih => intro a; exact List.Pairwise.cons (fun c h => Memory.ofBytesFrom_ge bs (a + 1) c h) (ih (a + 1))

/-- Loading a text gives the canonical form. -/
theorem Memory.wf_ofBytes (bs : List Byte) : Memory.wf (Memory.ofBytes bs) := Memory.wf_ofBytesFrom bs 0

/-- Taking a request leaves the `TXT` memory in the canonical form, whatever it was before. -/
theorem takeRequest_keeps_wf (r : Request) (rest : List Request) (s : State) :
    Memory.wf (takeRequest r rest s).txt := by simpa using Memory.wf_ofBytes r.text

/-- The memory of the reset state is in the canonical form. -/
theorem reset_memory_wf : Memory.wf State.reset.txt := List.Pairwise.nil

end Sys2Proof.Machine
end

