-- ==== Sys2Proof/Laws/PerInstr.lean ====
section
/-! SUPPORT. Per-instruction facts about the syntax: the word of an operation fits the width of its class. -/

namespace Sys2Proof.Laws.EncodedFits

/-- The encoded word has no bit above its class's width. -/
abbrev Statement (i : Instr) : Prop := encode i < 2 ^ i.wordClass.width

theorem bitNum_le (b : Bool) : bitNum b ≤ 1 := by cases b <;> decide

theorem init : Statement .init := by decide

theorem clear : Statement .clear := by decide

theorem wrstr (row col : Byte) : Statement (.wrstr row col) := by
  have := row.isLt; have := col.isLt
  simp only [Statement, encode, Instr.wordClass, WordClass.width]; omega

theorem setaddr (row col : Byte) : Statement (.setaddr row col) := by
  have := row.isLt; have := col.isLt
  simp only [Statement, encode, Instr.wordClass, WordClass.width]; omega

theorem wrdata (b : Byte) : Statement (.wrdata b) := b.isLt

theorem sendbyte (c : Byte) (rs : Bool) : Statement (.sendbyte c rs) := by
  have := c.isLt; have := bitNum_le rs
  simp only [Statement, encode, Instr.wordClass, WordClass.width]; omega

theorem bootnib (v : Nibble) : Statement (.bootnib v) := v.isLt

theorem strobe (n : Byte) : Statement (.strobe n) := n.isLt

theorem buswr (b : Byte) : Statement (.buswr b) := b.isLt

theorem wait (k : DelayClass) : Statement (.wait k) := by cases k <;> decide

theorem eh (d : Nibble) (r : Bool) : Statement (.eh d r) := by
  have := d.isLt; have := bitNum_le r
  simp only [Statement, encode, Instr.wordClass, WordClass.width]; omega

theorem el (d : Nibble) (r : Bool) : Statement (.el d r) := by
  have := d.isLt; have := bitNum_le r
  simp only [Statement, encode, Instr.wordClass, WordClass.width]; omega

theorem cmdClear : Statement .cmdClear := by decide

theorem cmdHome : Statement .cmdHome := by decide

theorem cmdEntry (id sh : Bool) : Statement (.cmdEntry id sh) := by cases id <;> cases sh <;> decide

theorem cmdDispctl (d c b : Bool) : Statement (.cmdDispctl d c b) := by cases d <;> cases c <;> cases b <;> decide

theorem cmdFuncset (dl n f : Bool) : Statement (.cmdFuncset dl n f) := by cases dl <;> cases n <;> cases f <;> decide

theorem cmdSetddram (a : BitVec 7) : Statement (.cmdSetddram a) := by
  have := a.isLt
  simp only [Statement, encode, Instr.wordClass, WordClass.width]; omega

theorem data (b : Byte) : Statement (.data b) := b.isLt

end Sys2Proof.Laws.EncodedFits
end

