-- ==== Sys2Proof/Tests/Slice0.lean ====
section
/-! SUPPORT. The model's own tests: ill-formed terms refused, words written out from the spec's encodings, one step of each
operation against the vectors of 95_test_vectors.md (S1, V1 to V74; each test names its own), and for every statement with
hypotheses a concrete state that meets them. -/

namespace Sys2Proof.Tests

open Sys2Proof.Machine

/-- `n` answers `ok`. -/
def oks (n : Nat) : List (Option Reply) := List.replicate n (some .ok)

/-- The block after a successful INIT, idle. -/
def ready : State := { State.reset with fsm := .ready, istep := 9 }

/-- `FSM = InitFailed`, idle. -/
def failed : State := { State.reset with fsm := .initFailed, istep := 3 }

/-- CLEAR just accepted, every write to be answered `ok`. -/
def clearing : State :=
  { ready with busy := true, running := some .clear, todo := clearProgram Config.default, replies := oks 8 }

/-- CLEAR at its first bus write (`upc = 0`). -/
def clearingWrite : State :=
  { clearing with
    todo := strobeTasks Config.default true 0x00#8 ++ [.op (.strobe 0x10#8), .op (.sendbyte 0x02#8 false)] }

/-- CLEAR at its first delay (`upc = 1`). -/
def clearingWait : State :=
  { clearing with
    upc := 1, nwr := 1
    todo := (strobeTasks Config.default true 0x00#8).drop 1 ++ [.op (.strobe 0x10#8), .op (.sendbyte 0x02#8 false)] }

/-- INIT just accepted. -/
def starting : State :=
  { State.reset with busy := true, running := some .init, todo := initProgram Config.default, replies := oks 24 }

/-- INIT at the end of its first step. -/
def startingStep : State := { starting with upc := 6, nwr := 2, todo := (initProgram Config.default).drop 1 }

/-- INIT at its first bus write, which will fail. -/
def startingWrite : State :=
  { starting with
    todo := strobeTasks Config.default true 0x30#8 ++ (initProgram Config.default).drop 1, replies := [some .fail] }

/-- A WRSTR of "Hi" at row 1, column 5, at the test of its loop. -/
def writing : State :=
  { ready with
    busy := true, running := some .wrstr, row := 1#8, col := 5#8, addr := 0x85#8, len := 2
    txt := [(0, 0x48#8), (1, 0x69#8)], todo := [.textLoop], upc := 12, nwr := 4 }

/-- Whether an answer is a next state of which `p` holds. -/
def gives (o : Answer) (p : State → Bool) : Bool :=
  match o with
  | .next t => p t
  | .fault _ => false
  | .refused _ => false

/-! ### Well-formedness -/

/-- R82: a nibble byte with the enable, the backlight or the `RW` bit set is no operand of STROBE. -/
theorem test_wf_strobe_refuses_flag_bits :
    Instr.wf (.strobe 0x34#8) = false ∧ Instr.wf (.strobe 0x38#8) = false ∧ Instr.wf (.strobe 0x32#8) = false ∧
      Instr.wf (.strobe 0x31#8) = true := by decide

/-- R7: two masks that coincide, and a mask in the high nibble, are refused. -/
theorem test_wf_config_refuses :
    ¬ Config.wf { Config.default with rwBit := 0x04#8 } ∧ ¬ Config.wf { Config.default with enBit := 0x10#8 } ∧
      Config.wf Config.default := by decide

/-! ### Words written out from the spec's encodings -/

/-- V60 to V62, R97: the ignored fields of INIT and CLEAR are ignored. -/
theorem test_decode_init_clear :
    decode .req 0b00_00000000_00000000 = .ok .init ∧ decode .req 0x0FFFF = .ok .init ∧
      decode .req 0b01_00000000_00000000 = .ok .clear ∧ decode .req 0x1A5C3 = .ok .clear := by decide

/-- V63, V64, V66: the row in bits 15:8, the column in bits 7:0. -/
theorem test_decode_wrstr :
    decode .req 0x20105 = .ok (.wrstr 1#8 5#8) ∧ decode .req 0x20400 = .ok (.wrstr 4#8 0#8) ∧
      decode .req 0x20500 = .ok (.wrstr 5#8 0#8) := by decide

/-- V65, and a word of more than 18 bits. -/
theorem test_decode_req_rejects :
    decode .req 0x30000 = .error .reservedOp ∧ decode .req 0x40000 = .error .tooWide := by decide

/-- R80, INT16, INT8: `row` in bits 15:8 and `col` in bits 7:0; one operand byte. -/
theorem test_decode_setaddr_wrdata :
    decode .int16 0b00000010_00000011 = .ok (.setaddr 2#8 3#8) ∧ decode .int8 0b01001000 = .ok (.wrdata 0x48#8) := by decide

/-- R80, INT9 and R91, BOOT: `rs` in bit 8; four bits. -/
theorem test_decode_sendbyte_bootnib :
    decode .int9 0b0_00101000 = .ok (.sendbyte 0x28#8 false) ∧ decode .int9 0b1_11111111 = .ok (.sendbyte 0xFF#8 true) ∧
      decode .boot 0b0011 = .ok (.bootnib 3#4) ∧ decode .boot 0b10000 = .error .tooWide := by decide

/-- R82, `dddd000r`, and each of its three zero bits set. -/
theorem test_decode_strobe :
    decode .nibble 0b1111_0001 = .ok (.strobe 0xF1#8) ∧ decode .nibble 0b1111_0011 = .error .notNibbleByte ∧
      decode .nibble 0b1111_0101 = .error .notNibbleByte ∧ decode .nibble 0b1111_1001 = .error .notNibbleByte := by decide

/-- R81, R99: any wire byte; the four delay classes. -/
theorem test_decode_buswr_wait :
    decode .wire 0b0011_1100 = .ok (.buswr 0x3C#8) ∧ decode .wsel 0 = .ok (.wait .wr) ∧ decode .wsel 1 = .ok (.wait .eh) ∧
      decode .wsel 2 = .ok (.wait .el) ∧ decode .wsel 3 = .ok (.wait .init) := by decide

/-- R94: `dddd110r` and `dddd100r`; R101 (c, d): the `RW` bit set, or the backlight bit clear. -/
theorem test_decode_phases :
    decode .phase 0b1010_1101 = .ok (.eh 0xA#4 true) ∧ decode .phase 0b1010_1000 = .ok (.el 0xA#4 false) ∧
      decode .phase 0b1010_1110 = .error .notWirePhase ∧ decode .phase 0b1010_0100 = .error .notWirePhase := by decide

/-- R84 to R88: the values the design emits. -/
theorem test_decode_commands :
    decode .cmd 0b00000001 = .ok .cmdClear ∧ decode .cmd 0b00000010 = .ok .cmdHome ∧
      decode .cmd 0b00000110 = .ok (.cmdEntry true false) ∧ decode .cmd 0b00001100 = .ok (.cmdDispctl true false false) ∧
      decode .cmd 0b00101000 = .ok (.cmdFuncset false true false) := by decide

/-- R89, R90, S1: address set, and a data byte. -/
theorem test_decode_address_data :
    decode .cmd 0x85 = .ok (.cmdSetddram 0x05#7) ∧ decode .cmd 0xD4 = .ok (.cmdSetddram 0x54#7) ∧
      decode .data 0xFF = .ok (.data 0xFF#8) := by decide

/-- R101 (e): display shift, CGRAM address and zero are never emitted as commands. -/
theorem test_decode_never_emitted :
    decode .cmd 0b0001_0000 = .error .neverEmitted ∧ decode .cmd 0b01_000000 = .error .neverEmitted ∧
      decode .cmd 0 = .error .neverEmitted := by decide

/-- Words that come with their width only: a request, and eight bits read as a wire phase before a command. -/
theorem test_decode_table_words :
    decodeTableWord 24 0x20105 = some (.wrstr 1#8 5#8) ∧ decodeTableWord 24 0x30000 = none ∧
      decodeTableWord 8 0x3C = some (.eh 3#4 false) ∧ decodeTableWord 8 0x01 = some .cmdClear ∧
      decodeTableWord 16 0x0305 = some (.setaddr 3#8 5#8) ∧ decodeTableWord 16 0x0128 = some (.sendbyte 0x28#8 true) := by decide

/-! ### One step of each operation -/

/-- V60: an INIT word at the port of the reset block starts INIT. -/
theorem test_init_from_reset :
    gives (step (State.reset.withFetchWord 24 0x00000)) (fun t => t.busy && t.running == some .init && t.requests == []) = true := by
  decide

/-- V24, V25: INIT when `FSM = Ready` or `InitFailed` is refused, with no event. -/
theorem test_init_refused :
    gives (exec .init ready) (fun t => t.result.code == .badState && !t.busy && t.trace == []) = true ∧
      gives (exec .init failed) (fun t => t.result.code == .badState && t.fsm == .initFailed) = true := by decide

/-- V30, V31: CLEAR in `Ready` and before INIT. -/
theorem test_clear :
    gives (exec .clear ready) (fun t => t.busy && t.todo == [.op (.sendbyte 0x01#8 false), .op (.sendbyte 0x02#8 false)]) = true ∧
      gives (exec .clear State.reset) (fun t => t.result.code == .badState && !t.busy) = true := by decide

/-- V40: WRSTR "Hi", 1, 5 loads its operands and the length of its text. -/
theorem test_wrstr_accepted :
    gives (exec (.wrstr 1#8 5#8) { ready with txt := Memory.ofBytes [0x48#8, 0x69#8] })
      (fun t => t.busy && t.row == 1#8 && t.col == 5#8 && t.len == 2 && t.idx == 0) = true := by decide

/-- V50 to V52, V54: a bad row, and the order of the checks. -/
theorem test_wrstr_bad_row :
    gives (exec (.wrstr 0#8 0#8) ready) (fun t => t.result.code == .badRow && t.trace == []) = true ∧
      gives (exec (.wrstr 5#8 0#8) ready) (fun t => t.result.code == .badRow) = true ∧
      gives (exec (.wrstr 255#8 0#8) ready) (fun t => t.result.code == .badRow) = true ∧
      gives (exec (.wrstr 0#8 0#8) State.reset) (fun t => t.result.code == .badState) = true := by decide

/-- R6: `N_ROWS` given alone: with two valid rows, row 3 is refused and row 2 is not. -/
theorem test_wrstr_n_rows :
    gives (exec (.wrstr 3#8 0#8) { ready with cfg := { Config.default with nRows := 2 } }) (fun t => t.result.code == .badRow) = true ∧
      gives (exec (.wrstr 2#8 0#8) { ready with cfg := { Config.default with nRows := 2 } }) (fun t => t.busy) = true := by decide

/-- V65: `op = 3` at the port. -/
theorem test_bad_op :
    gives (step { State.reset with requests := [⟨0x30000#18, []⟩] }) (fun t => t.result.code == .badOp && t.requests == []) = true := by
  decide

/-- S1: the source's four addresses. -/
theorem test_setaddr_source_examples :
    gives (exec (.setaddr 1#8 5#8) ready) (fun t => t.addr == 0x85#8) = true ∧
      gives (exec (.setaddr 2#8 0#8) ready) (fun t => t.addr == 0xC0#8) = true ∧
      gives (exec (.setaddr 3#8 0#8) ready) (fun t => t.addr == 0x94#8) = true ∧
      gives (exec (.setaddr 4#8 0#8) ready) (fun t => t.addr == 0xD4#8) = true := by decide

/-- V46, V47: the largest column of row 4 without carry, and the next one. -/
theorem test_setaddr_carry :
    gives (exec (.setaddr 4#8 0x2B#8) ready) (fun t => t.addr == 0xFF#8) = true ∧
      gives (exec (.setaddr 4#8 0x2C#8) ready)
        (fun t => t.addr == 0x00#8 && t.todo == [.op (.sendbyte 0x00#8 false)] && t.result.code == .ok) = true := by decide

/-- R185: a character goes to the data register. -/
theorem test_wrdata : gives (exec (.wrdata 0x48#8) ready) (fun t => t.todo == [.op (.sendbyte 0x48#8 true)]) = true := by decide

/-- V13: the nibble bytes of `0xA5` with `rs = 1`, `A` first. -/
theorem test_sendbyte :
    gives (exec (.sendbyte 0xA5#8 true) ready)
      (fun t => t.cmd == 0xA5#8 && t.rs && t.todo == [.op (.strobe 0xA1#8), .op (.strobe 0x51#8)]) = true := by decide

/-- V7, V8: bootstrap nibbles stand on bits 7:4. -/
theorem test_bootnib :
    gives (exec (.bootnib 3#4) ready) (fun t => t.todo == [.op (.strobe 0x30#8)]) = true ∧
      gives (exec (.bootnib 2#4) ready) (fun t => t.todo == [.op (.strobe 0x20#8)]) = true := by decide

/-- V4 (`FD F9`), with the delays of R141. -/
theorem test_strobe :
    gives (exec (.strobe 0xF1#8) ready) (fun t => t.nib == 0xF1#8 &&
      t.todo == [.op (.buswr 0xFD#8), .op (.wait .wr), .op (.wait .eh), .op (.buswr 0xF9#8), .op (.wait .wr), .op (.wait .el)]) = true := by
  decide

/-- The worked example of R120. -/
theorem test_buswr_ok :
    gives (exec (.buswr 0x3C#8) { ready with replies := oks 1 })
      (fun t => t.pins == 0x3C#8 && t.trace == [.wr 0x3C#8 .ok] && t.upc == 1 && t.nwr == 1) = true := by decide

/-- V21: write 7 of INIT fails: `ISTEP` stays 3, `FAILIDX` is 7. -/
theorem test_buswr_fails_in_init :
    gives (exec (.buswr 0x28#8) { starting with istep := 3, fsm := .bit4ModeRequested, nwr := 7, replies := [some .fail] })
      (fun t => t.result == ⟨.initError, 7⟩ && t.fsm == .initFailed && t.istep == 3 && !t.busy && t.todo == []) = true := by decide

/-- V33: write 4 of CLEAR fails. -/
theorem test_buswr_fails_in_clear :
    gives (exec (.buswr 0x0C#8) { clearing with nwr := 4, replies := [some .fail] })
      (fun t => t.result == ⟨.ioError, 4⟩ && t.fsm == .ready && !t.busy && t.trace == [.wr 0x0C#8 .fail]) = true := by decide

/-- The worked example of R123. -/
theorem test_wait : gives (exec (.wait .eh) ready) (fun t => t.trace == [.wait .eh] && t.upc == 1) = true := by decide

/-- V5: `3C` then `38`. -/
theorem test_wire_phases :
    gives (exec (.eh 3#4 false) { ready with replies := oks 1 }) (fun t => t.pins == 0x3C#8) = true ∧
      gives (exec (.el 3#4 false) { ready with replies := oks 1 }) (fun t => t.pins == 0x38#8) = true := by decide

/-- R84 to R88: the bytes of the five fixed commands. -/
theorem test_commands :
    gives (exec .cmdClear ready) (fun t => t.todo == [.op (.sendbyte 0x01#8 false)]) = true ∧
      gives (exec .cmdHome ready) (fun t => t.todo == [.op (.sendbyte 0x02#8 false)]) = true ∧
      gives (exec (.cmdEntry true false) ready) (fun t => t.todo == [.op (.sendbyte 0x06#8 false)]) = true ∧
      gives (exec (.cmdDispctl true false false) ready) (fun t => t.todo == [.op (.sendbyte 0x0C#8 false)]) = true ∧
      gives (exec (.cmdFuncset false true false) ready) (fun t => t.todo == [.op (.sendbyte 0x28#8 false)]) = true := by decide

/-- R89, R90: address set and data. -/
theorem test_address_data :
    gives (exec (.cmdSetddram 0x05#7) ready) (fun t => t.todo == [.op (.sendbyte 0x85#8 false)]) = true ∧
      gives (exec (.data 0x48#8) ready) (fun t => t.todo == [.op (.sendbyte 0x48#8 true)]) = true := by decide

/-- R240: reset in the middle of CLEAR: no event, no result. -/
theorem test_reset_cuts_short :
    gives (step { clearing with resetIn := [true] })
      (fun t => t.fsm == .poweredUnknown && !t.busy && t.todo == [] && t.trace == [] && t.results == []) = true := by decide

/-- R226: a write that is never answered. -/
theorem test_hang : exec (.buswr 0x3C#8) { ready with replies := [none] } = .fault .transportHang := by rfl

/-! ### Expansions -/

/-- V11, V17: all zero; `c << 4` loses bit 7. -/
theorem test_expand_sendbyte :
    writeBytes (Expand.sendbyte Config.default true 0x00#8 false) = [0x0C#8, 0x08#8, 0x0C#8, 0x08#8] ∧
      writeBytes (Expand.sendbyte Config.default true 0x80#8 true) = [0x8D#8, 0x89#8, 0x0D#8, 0x09#8] := by decide

/-- V20: the bytes of INIT, its 73 primitives, its 209 600 µs. -/
theorem test_expand_init :
    writeBytes (Expand.init Config.default true) =
      [0x3C#8, 0x38#8, 0x3C#8, 0x38#8, 0x3C#8, 0x38#8, 0x2C#8, 0x28#8] ++
      [0x2C#8, 0x28#8, 0x8C#8, 0x88#8, 0x0C#8, 0x08#8, 0xCC#8, 0xC8#8] ++
      [0x0C#8, 0x08#8, 0x1C#8, 0x18#8, 0x0C#8, 0x08#8, 0x6C#8, 0x68#8] ∧
    (Expand.init Config.default true).length = 73 ∧ minMicros Config.default (Expand.init Config.default true) = 209600 := by
  decide

/-- D5: the bootstrap parts of the two other forms, and their counts of bus writes. -/
theorem test_expand_boot_forms :
    (writeBytes (Expand.init { Config.default with bootForm := .fullByte } true)).take 4 = [0x0C#8, 0x08#8, 0x3C#8, 0x38#8] ∧
      (writeBytes (Expand.init { Config.default with bootForm := .fullByte } true)).length = 32 ∧
      (writeBytes (Expand.init { Config.default with bootForm := .rawWrite } true)).take 4 = [0x03#8, 0x03#8, 0x03#8, 0x02#8] ∧
      (writeBytes (Expand.init { Config.default with bootForm := .rawWrite } true)).length = 20 := by decide

/-- V40: the bytes of WRSTR "Hi", 1, 5. -/
theorem test_expand_wrstr :
    writeBytes (Expand.wrstr Config.default true 1#8 5#8 [0x48#8, 0x69#8]) =
      [0x8C#8, 0x88#8, 0x5C#8, 0x58#8, 0x4D#8, 0x49#8, 0x8D#8, 0x89#8, 0x6D#8, 0x69#8, 0x9D#8, 0x99#8] := by decide

/-- V13: `Latched` of `SENDBYTE 0xA5, 0`. -/
theorem test_latched :
    latched Config.default ((Expand.sendbyte Config.default true 0xA5#8 false).map Prim.okEvent) =
      [(false, 0xA#4), (false, 0x5#4)] := by decide

/-! ### Witnesses: concrete states and operands that meet the hypotheses of the statements -/

/-- A list of internal operations holds no request, told by evaluation. -/
theorem inner_of_all {c : Config} {l : List Task} (h : l.all (Task.isInner c) = true) : ∀ t ∈ l, t.isInner c = true := by
  simpa using h

/-- An idle block after INIT meets the invariant. -/
theorem ready_safe : SafeState ready where
  cfgOk := by decide
  backlight := rfl
  busyRuns := rfl
  textForm := List.Pairwise.nil
  upcBound := by intro h; cases h
  position := by intro h; cases h
  shape := ⟨rfl, .inr (.inl ⟨rfl, rfl⟩)⟩

/-- A block that has just accepted CLEAR meets the invariant. -/
theorem clearing_safe : SafeState clearing where
  cfgOk := by decide
  backlight := rfl
  busyRuns := rfl
  textForm := List.Pairwise.nil
  upcBound := by intro; exact Nat.zero_le _
  position := by intro; rfl
  shape := ⟨rfl, rfl, inner_of_all rfl⟩

/-- A block at the first bus write of CLEAR meets the invariant. -/
theorem clearingWrite_safe : SafeState clearingWrite where
  cfgOk := by decide
  backlight := rfl
  busyRuns := rfl
  textForm := List.Pairwise.nil
  upcBound := by intro; exact Nat.zero_le _
  position := by intro; rfl
  shape := ⟨rfl, rfl, inner_of_all rfl⟩

/-- The same block, the write to be answered `fail`. -/
theorem clearingFail_safe : SafeState { clearingWrite with replies := [some .fail] } where
  cfgOk := by decide
  backlight := rfl
  busyRuns := rfl
  textForm := List.Pairwise.nil
  upcBound := by intro; exact Nat.zero_le _
  position := by intro; rfl
  shape := ⟨rfl, rfl, inner_of_all rfl⟩

/-- The same block, the write never to be answered. -/
theorem clearingHang_safe : SafeState { clearingWrite with replies := [none] } where
  cfgOk := by decide
  backlight := rfl
  busyRuns := rfl
  textForm := List.Pairwise.nil
  upcBound := by intro; exact Nat.zero_le _
  position := by intro; rfl
  shape := ⟨rfl, rfl, inner_of_all rfl⟩

/-- A block at the first delay of CLEAR meets the invariant. -/
theorem clearingWait_safe : SafeState clearingWait where
  cfgOk := by decide
  backlight := rfl
  busyRuns := rfl
  textForm := List.Pairwise.nil
  upcBound := by intro; decide
  position := by intro; rfl
  shape := ⟨rfl, rfl, inner_of_all rfl⟩

/-- A block that has just accepted INIT meets the invariant. -/
theorem starting_safe : SafeState starting where
  cfgOk := by decide
  backlight := rfl
  busyRuns := rfl
  textForm := List.Pairwise.nil
  upcBound := by intro; exact Nat.zero_le _
  position := by intro; rfl
  shape := ⟨rfl, .inl rfl⟩

/-- A block at the end of the first step of INIT meets the invariant. -/
theorem startingStep_safe : SafeState startingStep where
  cfgOk := by decide
  backlight := rfl
  busyRuns := rfl
  textForm := List.Pairwise.nil
  upcBound := by intro; decide
  position := by intro; rfl
  shape := ⟨rfl, .inr ⟨by decide, [], inner_of_all rfl, rfl⟩⟩

/-- A block at the first bus write of INIT meets the invariant. -/
theorem startingWrite_safe : SafeState startingWrite where
  cfgOk := by decide
  backlight := rfl
  busyRuns := rfl
  textForm := List.Pairwise.nil
  upcBound := by intro; exact Nat.zero_le _
  position := by intro; rfl
  shape := ⟨rfl, .inr ⟨by decide, strobeTasks Config.default true 0x30#8, inner_of_all rfl, rfl⟩⟩

/-- A block at the loop of WRSTR meets the invariant. -/
theorem writing_safe : SafeState writing where
  cfgOk := by decide
  backlight := rfl
  busyRuns := rfl
  textForm := by decide
  upcBound := by intro; decide
  position := by intro; rfl
  shape := ⟨rfl, rfl, ⟨[0x48#8, 0x69#8], rfl, rfl⟩, by decide, [], inner_of_all rfl, .inl rfl⟩

theorem witness_DecodeOfEncode : Instr.wf (.strobe 0xF1#8) = true := by decide

theorem witness_DecodeAcceptsOnlyItsOwnWords :
    decode .cmd 0x2B = .ok (.cmdFuncset false true false) ∧ decode .req 0x0FFFF = .ok .init ∧
      decode .int16 0xFFFF = .ok (.setaddr 0xFF#8 0xFF#8) := by decide

theorem witness_RequestWordReadsOpRowCol : 3 < 4 ∧ 255 < 256 ∧ 0 < 256 := by decide

theorem witness_ResetLineTakesEffectAnywhere : { clearing with resetIn := [true, false] }.resetIn = true :: [false] := rfl

/-- Both clauses: a request at the port, an operation in the sequencer. -/
theorem witness_StepRunsTheFetchedOperation :
    (idle { ready with requests := [⟨0x10000#18, []⟩] } ∧ decode .req (0x10000#18).toNat = .ok .clear) ∧
      (clearing.resetIn = [] ∧ clearing.todo = .op (.sendbyte 0x01#8 false) :: [.op (.sendbyte 0x02#8 false)]) :=
  ⟨⟨⟨rfl, rfl, rfl⟩, by decide⟩, rfl, rfl⟩

/-- Each clause: a step of INIT, the loop at its end (`IDX = LEN`), the loop at its last character, the increment, the end of a
request, an idle block. -/
theorem witness_StepsBetweenOperations :
    startingStep.todo = .initStep 1 :: (initProgram Config.default).drop 2 ∧
      ({ writing with idx := 2 }.todo = [.textLoop] ∧ ¬ { writing with idx := 2 }.idx < writing.len) ∧
      ({ writing with idx := 1 }.idx < writing.len ∧ Memory.read writing.txt 1 = some 0x69#8) ∧
      { writing with todo := [.textNext] }.todo = [.textNext] ∧
      ({ clearing with todo := [] }.todo = [] ∧ { clearing with todo := [] }.busy = true) ∧
      (idle ready ∧ ready.requests = []) :=
  ⟨rfl, ⟨rfl, by decide⟩, ⟨by decide, by decide⟩, rfl, ⟨rfl, rfl⟩, ⟨rfl, rfl, rfl⟩, rfl⟩

theorem witness_BuswrAnsweredOk : clearingWrite.replies = some .ok :: oks 7 := rfl

/-- A failed write of INIT, and one of CLEAR. -/
theorem witness_BuswrAnsweredFailAborts :
    (startingWrite.replies = some .fail :: [] ∧ startingWrite.running = some .init) ∧
      ({ clearingWrite with replies := [some .fail] }.replies = some .fail :: [] ∧ clearingWrite.running ≠ some .init) :=
  ⟨⟨rfl, rfl⟩, rfl, by decide⟩

theorem witness_BuswrUnlistedAnswerOrHang : ready.replies = [] ∧ { ready with replies := [none] }.replies = none :: [] :=
  ⟨rfl, rfl⟩

theorem witness_WirePhasesWriteTheirByte :
    clearingWrite.replies = some .ok :: oks 7 ∧ clearingWrite.cfg = Config.default ∧ clearingWrite.bl = true := ⟨rfl, rfl, rfl⟩

theorem witness_StrobeRunsSixPrimitives : clearing.resetIn = [] ∧ answersOk clearing 2 (oks 6) := ⟨rfl, rfl⟩

/-- Each form of the bootstrap. -/
theorem witness_BootnibFollowsItsForm :
    ready.cfg.bootForm = .strobedNibble ∧
      { ready with cfg := { Config.default with bootForm := .fullByte } }.cfg.bootForm = .fullByte ∧
      { ready with cfg := { Config.default with bootForm := .rawWrite } }.cfg.bootForm = .rawWrite := ⟨rfl, rfl, rfl⟩

theorem witness_SendbyteRunsTwoStrobes : clearing.resetIn = [] ∧ answersOk clearing 4 (oks 4) := ⟨rfl, rfl⟩

/-- Also for the statements whose hypothesis is R7 alone: BuiltNibbleBytesAreNibbleBytes, NibbleSplitKeepsEveryBit,
RegisterSelectIsTheSameInAllFourBytes, SendbyteDeliversItsByte. -/
theorem witness_StrobeClearsOnlyTheEnableBit : Config.default.wf ∧ nibbleByteOk Config.default 0xF1#8 = true := by decide

theorem witness_NibbleBytesAreReadBack :
    Config.default.wf ∧ ∀ n ∈ [0x30#8, 0xF1#8], nibbleByteOk Config.default n = true := by decide

theorem witness_EmittedBytesMatchTheirPatterns :
    (Instr.cmdSetddram 0x7F#7).wordClass = .cmd ∧ ready.cfg = Config.default := ⟨rfl, rfl⟩

theorem witness_InitIsAccepted : State.reset.busy = false ∧ State.reset.fsm = .poweredUnknown := ⟨rfl, rfl⟩

theorem witness_InitRunsToReady :
    State.reset.busy = false ∧ State.reset.fsm = .poweredUnknown ∧ State.reset.resetIn = [] ∧
      answersOk { State.reset with replies := oks 24 } (writeBytes (Expand.init Config.default true)).length [] :=
  ⟨rfl, rfl, rfl, rfl⟩

theorem witness_InitKeepsRegisterSelectClear : Config.default.wf ∧ Config.default.bootForm ≠ .rawWrite := by decide

theorem witness_InitLatchesBootstrapThenCommands : Config.default.wf ∧ Config.default.bootForm = .strobedNibble := by decide

/-- Each way `FSM` can go: it stays, INIT completes a step, a write of INIT fails. -/
theorem witness_FsmMovesOnlyByInitOrReset :
    (SafeState clearing ∧ clearing.resetIn.head? ≠ some true ∧ ∃ t, step clearing = .next t ∧ t.fsm = clearing.fsm) ∧
      (SafeState startingStep ∧ ∃ t, step startingStep = .next t ∧ t.fsm = .bit4ModeRequested ∧ t.istep = 1) ∧
      (SafeState startingWrite ∧ ∃ t, step startingWrite = .next t ∧ t.fsm = .initFailed) :=
  ⟨⟨clearing_safe, by decide, _, rfl, rfl⟩, ⟨startingStep_safe, _, rfl, rfl, rfl⟩, startingWrite_safe, _, rfl, rfl⟩

theorem witness_ClearIsAccepted : ready.busy = false ∧ ready.fsm = .ready := ⟨rfl, rfl⟩

theorem witness_ClearRunsToItsResult :
    ready.busy = false ∧ ready.fsm = .ready ∧ ready.resetIn = [] ∧ answersOk { ready with replies := oks 8 } 8 [] :=
  ⟨rfl, rfl, rfl, rfl⟩

theorem witness_ClearTwiceEmitsTheSameTwice :
    idle ready ∧ ready.fsm = .ready ∧ answersOk { ready with replies := oks 16 } 16 [] ∧
      { ready with requests := [⟨0x10000#18, []⟩, ⟨0x10000#18, [0x48#8]⟩] }.requests =
        [⟨0x10000#18, []⟩, ⟨0x10000#18, [0x48#8]⟩] := ⟨⟨rfl, rfl, rfl⟩, rfl, rfl, rfl⟩

/-- Rows on the two sides of each end of the range. -/
theorem witness_RowBasesOfTheDesign :
    ((0#8).toNat < 1 ∧ 4 < (5#8).toNat) ∧ 1 ≤ (1#8).toNat ∧ (4#8).toNat ≤ Config.default.nRows ∧
      ({ Config.default with nRows := 2 } : Config).nRows < (3#8).toNat := by decide

/-- A row that has a base, and one that has none under each policy. -/
theorem witness_SetaddrComputesTheAddressByte :
    rowBaseOf Config.default 4#8 = some 0x54#8 ∧ rowBaseOf Config.default 5#8 = none ∧ rowBaseOf Config.default 0#8 = none ∧
      Config.default.rowPolicy = .refuse ∧ ({ Config.default with rowPolicy := .zeroOffset } : Config).rowPolicy = .zeroOffset ∧
      ({ Config.default with rowPolicy := .zeroPosition } : Config).rowPolicy = .zeroPosition := by decide

/-- The columns on the two sides of the boundary of row 4 (R190), the source of each side of the sum. -/
theorem witness_AddressSumWrapsSilently :
    ready.cfg = Config.default ∧ rowBaseOf ready.cfg 4#8 = some 0x54#8 ∧ ¬ (0x2B#8).toNat > 0x7F - (0x54#8).toNat ∧
      (0x2C#8).toNat > 0x7F - (0x54#8).toNat := by decide

/-- The two inputs of the failing remark of R190: one for which it holds, one for which it does not. -/
theorem witness_WrappedAddressAlwaysHasBit7Clear :
    rowBaseOf Config.default 4#8 = some 0x54#8 ∧ 0x80 + (0x54#8).toNat + (0x2C#8).toNat > 0xFF ∧
      0x80 + (0x54#8).toNat + (0xFF#8).toNat > 0xFF := by decide

theorem witness_WrstrIsAccepted : ready.busy = false ∧ ready.fsm = .ready ∧ addrByte ready.cfg 4#8 0xFF#8 ≠ none := by decide

/-- The empty text, and a text of two characters. -/
theorem witness_WrstrRunsToItsResult :
    (ready.busy = false ∧ ready.fsm = .ready ∧ ready.resetIn = [] ∧ ready.txt = Memory.ofBytes [] ∧
      addrByte ready.cfg 2#8 0#8 = some 0xC0#8 ∧ answersOk { ready with replies := oks 4 } (4 * (1 + 0)) []) ∧
    ({ ready with txt := [(0, 0x48#8), (1, 0x69#8)] }.txt = Memory.ofBytes [0x48#8, 0x69#8] ∧
      addrByte ready.cfg 1#8 5#8 = some 0x85#8 ∧ answersOk { ready with replies := oks 12 } (4 * (1 + 2)) []) :=
  ⟨⟨rfl, rfl, rfl, rfl, by decide, rfl⟩, rfl, by decide, rfl⟩

/-- Also for WrstrDeliversAddressThenText. -/
theorem witness_WrstrRegisterSelectPhases : Config.default.wf ∧ addrByte Config.default 1#8 5#8 = some 0x85#8 := by decide

/-- Rows 0 and 5, the ones next to the range, and each policy. -/
theorem witness_RowOutsideOneToFourFollowsThePolicy :
    ready.cfg = { Config.default with rowPolicy := .refuse } ∧
      ((0#8).toNat < 1 ∨ 4 < (0#8).toNat) ∧ ((5#8).toNat < 1 ∨ 4 < (5#8).toNat) ∧ ready.busy = false ∧ ready.fsm = .ready ∧
      { ready with cfg := { Config.default with rowPolicy := .zeroOffset } }.cfg =
        { Config.default with rowPolicy := .zeroOffset } ∧
      { ready with cfg := { Config.default with rowPolicy := .zeroPosition } }.cfg =
        { Config.default with rowPolicy := .zeroPosition } := by decide

theorem witness_WrongStateIsRefused :
    ready.busy = false ∧ ready.fsm ≠ .poweredUnknown ∧ failed.busy = false ∧ failed.fsm ≠ .ready := by decide

theorem witness_BusyBlockAcceptsNothing :
    clearing.busy = true ∧ Instr.init.isRequest = true ∧ ∃ t, step clearing = .next t := ⟨rfl, rfl, _, rfl⟩

/-- Each branch of the admission: `op = 3`, a wrong state, a bad row, an accepted request. -/
theorem witness_AdmissionChecksInOrder :
    idle { ready with requests := [⟨0x30000#18, []⟩] } ∧ (0x30000#18).extractLsb' 16 2 = 3#2 ∧
      ((0x00000#18).extractLsb' 16 2 = 0#2 ∧ ready.fsm ≠ .poweredUnknown) ∧
      ((0x20500#18).extractLsb' 16 2 = 2#2 ∧
        addrByte ready.cfg ((0x20500#18).extractLsb' 8 8) ((0x20500#18).extractLsb' 0 8) = none) ∧
      ((0x20105#18).extractLsb' 16 2 = 2#2 ∧
        addrByte ready.cfg ((0x20105#18).extractLsb' 8 8) ((0x20105#18).extractLsb' 0 8) ≠ none) :=
  ⟨⟨rfl, rfl, rfl⟩, by decide, by decide, by decide, by decide⟩

theorem witness_TimingFigures :
    Config.default.bootForm = .strobedNibble ∧ addrByte Config.default 1#8 5#8 = some 0x85#8 := by decide

theorem witness_NoOperationWritesParametersTextOrRequests :
    (∃ t, exec .clear ready = .next t) ∧ ∃ t, exec (.buswr 0x3C#8) clearing = .next t := ⟨⟨_, rfl⟩, _, rfl⟩

/-- Each clause: an emitted byte, SENDBYTE, STROBE, SETADDR with and without an address. -/
theorem witness_ExpandingOperationsFrame :
    (∃ t, exec .cmdHome ready = .next t) ∧ (∃ t, exec (.sendbyte 0xA5#8 true) ready = .next t) ∧
      (∃ t, exec (.strobe 0xF1#8) ready = .next t) ∧ (∃ t, exec (.setaddr 4#8 0x2C#8) ready = .next t) ∧
      ∃ t, exec (.setaddr 5#8 0#8) ready = .next t := ⟨⟨_, rfl⟩, ⟨_, rfl⟩, ⟨_, rfl⟩, ⟨_, rfl⟩, _, rfl⟩

/-- A write that goes on, one that aborts, a delay, a wire phase. -/
theorem witness_BusOperationsFrame :
    (∃ t, exec (.buswr 0x3C#8) clearing = .next t ∧ t.busy = true) ∧
      (∃ t, exec (.buswr 0x3C#8) startingWrite = .next t ∧ t.busy = false) ∧ (∃ t, exec (.wait .el) ready = .next t) ∧
      ∃ t, exec (.eh 3#4 false) clearing = .next t := ⟨⟨_, rfl, rfl⟩, ⟨_, rfl, rfl⟩, ⟨_, rfl⟩, _, rfl⟩

theorem witness_StepEmitsAtMostOneEvent :
    (∃ t, step clearing = .next t ∧ t.trace = clearing.trace) ∧ ∃ t, step clearingWait = .next t ∧ t.trace = [.wait .wr] :=
  ⟨⟨_, rfl, rfl⟩, _, rfl, rfl⟩

theorem witness_ParametersAndBacklightStay : ∃ t, step { clearing with resetIn := [true] } = .next t := ⟨_, rfl⟩

/-- In each phase: idle, INIT, CLEAR, WRSTR. -/
theorem witness_StepKeepsTheInvariant :
    (SafeState ready ∧ ∃ t, step ready = .next t) ∧ (SafeState starting ∧ ∃ t, step starting = .next t) ∧
      (SafeState clearing ∧ ∃ t, step clearing = .next t) ∧ SafeState writing ∧ ∃ t, step writing = .next t :=
  ⟨⟨ready_safe, _, rfl⟩, ⟨starting_safe, _, rfl⟩, ⟨clearing_safe, _, rfl⟩, writing_safe, _, rfl⟩

/-- Each clause: a step that emits nothing, a delay, a write answered `ok`, a write that fails. -/
theorem witness_StepPerformsTheExpansionInOrder :
    (SafeState clearing ∧ clearing.busy = true ∧ clearing.resetIn.head? ≠ some true ∧ ∃ t, step clearing = .next t) ∧
      (SafeState clearingWait ∧ ∃ t, step clearingWait = .next t ∧ t.upc = 2) ∧
      (SafeState clearingWrite ∧ ∃ t, step clearingWrite = .next t ∧ t.pins = 0x0C#8) ∧
      SafeState { clearingWrite with replies := [some .fail] } ∧
        ∃ t, step { clearingWrite with replies := [some .fail] } = .next t ∧ t.busy = false :=
  ⟨⟨clearing_safe, rfl, by decide, _, rfl⟩, ⟨clearingWait_safe, _, rfl, rfl⟩, ⟨clearingWrite_safe, _, rfl, rfl⟩,
    clearingFail_safe, _, rfl, rfl⟩

theorem witness_RequestEndsAsItsExpansionRuns :
    SafeState clearing ∧ clearing.running = some .clear ∧ clearing.upc = 0 ∧ clearing.nwr = 0 ∧ clearing.resetIn = [] ∧
      clearing.replies = (List.replicate 8 Reply.ok).map some ++ [] ∧
      (writeBytes (expansion clearing)).length ≤ (List.replicate 8 Reply.ok).length :=
  ⟨clearing_safe, rfl, rfl, rfl, rfl, rfl, by decide⟩

theorem witness_EveryAnsweredRequestEnds : SafeState clearing ∧ clearing.busy = true ∧ answering clearing :=
  ⟨clearing_safe, rfl, rfl, by decide⟩

/-- A state that meets the invariant and stops. -/
theorem witness_OnlyAHangStopsTheMachine :
    SafeState { clearingWrite with replies := [none] } ∧
      step { clearingWrite with replies := [none] } = .fault .transportHang := ⟨clearingHang_safe, rfl⟩

theorem witness_EveryWireByteIsLegal :
    SafeState clearingWrite ∧ clearingWrite.cfg.bootForm ≠ .rawWrite ∧ traceLegal clearingWrite.cfg clearingWrite.trace ∧
      ∃ t, step clearingWrite = .next t :=
  ⟨clearingWrite_safe, by decide, (by intro w h; cases h), _, rfl⟩

end Sys2Proof.Tests
end

section
/-! PROOFS of the scope family: the bus write with no listed answer (O12), the row bases (O35), and the invariant (O55). -/

namespace Sys2Proof.Machine

/-! ### The bus write with no listed answer, and the row bases -/

/-- Settles O12: with no answer listed one free draw decides between the two ends of a bus write; an answer that never comes
is the fault. -/
theorem buswrUnlistedAnswerOrHang : Obligations.BuswrUnlistedAnswerOrHang := by
  refine ⟨fun b s h => ?_, fun b s rest h => busWrite_hang b h⟩
  have hw : exec (.buswr b) s = _ := busWrite_free b h
  rw [hw]
  cases Config.freeReply s.draws with
  | ok => exact .inl rfl
  | fail => exact .inr ⟨_, _, rfl, rfl⟩

/-- A row outside `1 .. N_ROWS` has no base. -/
theorem rowBaseOf_outside {c : Config} {row : Byte} (h : row.toNat < 1 ∨ c.nRows < row.toNat) : rowBaseOf c row = none :=
  if_neg (by omega)

/-- A row inside `1 .. N_ROWS` has the base listed for it. -/
theorem rowBaseOf_inside {c : Config} {row : Byte} (h1 : 1 ≤ row.toNat) (h2 : row.toNat ≤ c.nRows) :
    rowBaseOf c row = c.rowBase[row.toNat - 1]? := if_pos ⟨h1, h2⟩

/-- Settles O35: the four rows of the design by evaluation, every other row and every other configuration by the range test. -/
theorem rowBasesOfTheDesign : Obligations.RowBasesOfTheDesign := by
  refine ⟨fun row => ⟨?_, ?_, ?_, ?_, rowBaseOf_outside (c := Config.default)⟩,
    fun c row => ⟨rowBaseOf_outside, rowBaseOf_inside⟩⟩ <;> (rintro rfl; rfl)

/-! ### What the sequencer has at its head, in each phase -/

/-- Only inner operations. -/
def AllInner (c : Config) (ts : List Task) : Prop := ∀ x ∈ ts, x.isInner c = true

theorem AllInner.append {c : Config} {ts us : List Task} (ht : AllInner c ts) (hu : AllInner c us) : AllInner c (ts ++ us) :=
  List.forall_mem_append.2 ⟨ht, hu⟩

theorem AllInner.nil (c : Config) : AllInner c [] := List.forall_mem_nil _

/-- The head of the sequencer is one of the inner operations in front, or there are none of them. -/
theorem AllInner.head_cases {c : Config} {front tail rest : List Task} {x : Task} (hf : AllInner c front)
    (h : x :: rest = front ++ tail) :
    x :: rest = tail ∨ (x.isInner c = true ∧ ∃ f, AllInner c f ∧ rest = f ++ tail) := by
  obtain ⟨rfl, e⟩ | ⟨f, rfl, e⟩ := List.cons_eq_append_iff.1 h
  · exact .inl e.symm
  · obtain ⟨hx, hf⟩ := List.forall_mem_cons.1 hf
    exact .inr ⟨hx, f, hf, e⟩

/-- The program of INIT from step `n` on: nothing after the last assignment, and before it the operation of the step. -/
theorem initProgram_drop_even (c : Config) (n : Fin 10) :
    (n = 9 ∧ (initProgram c).drop (2 * n.val) = []) ∨
      (n.val < 9 ∧ ∃ i, (Task.op i).isInner c = true ∧
        (initProgram c).drop (2 * n.val) = .op i :: (initProgram c).drop (2 * n.val + 1)) := by
  cases n using Fin.lastCases with
  | last => exact .inl ⟨rfl, rfl⟩
  | cast m => fin_cases m <;> exact .inr ⟨by decide, _, rfl, rfl⟩

/-- After the operation of a step of INIT stands the assignment of the next step, then the program from there on. -/
theorem initProgram_drop_odd (c : Config) (n : Fin 10) (h : n.val < 9) :
    ∃ m : Fin 10, (initProgram c).drop (2 * n.val + 1) = .initStep m :: (initProgram c).drop (2 * m.val) := by
  cases n using Fin.lastCases with
  | last => exact absurd h (by decide)
  | cast m => exact ⟨m.succ, by fin_cases m <;> rfl⟩

theorem phaseShape_of_idle {s : State} (hr : s.running = none) :
    phaseShape s ↔ s.todo = [] ∧ ((s.fsm = .poweredUnknown ∧ s.istep = 0) ∨ (s.fsm = .ready ∧ s.istep = 9) ∨
      (s.fsm = .initFailed ∧ s.istep.val < 9)) := by
  simp only [phaseShape, hr]

theorem phaseShape_of_init {s : State} (hr : s.running = some .init) : phaseShape s ↔ initShape s := by
  simp only [phaseShape, hr]

theorem phaseShape_of_clear {s : State} (hr : s.running = some .clear) :
    phaseShape s ↔ s.fsm = .ready ∧ s.istep = 9 ∧ AllInner s.cfg s.todo := by
  simp only [phaseShape, hr, AllInner]

theorem phaseShape_of_wrstr {s : State} (hr : s.running = some .wrstr) : phaseShape s ↔ wrstrShape s := by
  simp only [phaseShape, hr]

/-- What a running INIT has in its sequencer, in one form: nothing after the last assignment, else inner operations and then the
program from the next assignment on. -/
theorem initShape_tasks {s : State} (h : initShape s) :
    (s.istep = 9 ∧ s.todo = []) ∨
      (s.istep.val < 9 ∧ ∃ front, AllInner s.cfg front ∧ s.todo = front ++ (initProgram s.cfg).drop (2 * s.istep.val + 1)) := by
  obtain ⟨-, ht | later⟩ := h
  · obtain ⟨h9, e⟩ | ⟨hlt, i, hi, e⟩ := initProgram_drop_even s.cfg s.istep
    · exact .inl ⟨h9, ht.trans e⟩
    · exact .inr ⟨hlt, [.op i], by simpa [AllInner] using hi, ht.trans e⟩
  · exact .inr later

/-- What an entry at the head of the sequencer says of the running request: an operation is an inner one, any inner operations
may take its place, and the request may be aborted at it; an assignment is INIT's, and the steps after it are left; a task of the
loop is the last task of WRSTR. -/
def headAllowed (s : State) (rest : List Task) : Task → Prop
  | .op i => (Task.op i).isInner s.cfg = true ∧
      (∀ front, AllInner s.cfg front → phaseShape { s with todo := front ++ rest }) ∧
      phaseShape (release { s with fsm := failFsm s.running s.fsm })
  | .initStep n => phaseShape (setInitStep n { s with todo := rest })
  | .textLoop => s.running = some .wrstr ∧ wrstrShape s ∧ rest = []
  | .textNext => s.running = some .wrstr ∧ wrstrShape s ∧ rest = [] ∧ s.idx < s.len

theorem headAllowed_of_inner {s : State} {x : Task} {rest : List Task} (hi : x.isInner s.cfg = true)
    (hput : ∀ front, AllInner s.cfg front → phaseShape { s with todo := front ++ rest })
    (habort : phaseShape (release { s with fsm := failFsm s.running s.fsm })) : headAllowed s rest x := by
  cases x with
  | op i => exact ⟨hi, hput, habort⟩
  | initStep n => cases hi
  | textLoop => cases hi
  | textNext => cases hi

/-- The head of a running INIT: an inner operation, or the assignment before the rest of the program. -/
theorem initShape_head {s : State} {x : Task} {rest : List Task} (hr : s.running = some .init) (h : initShape s)
    (ht : s.todo = x :: rest) : headAllowed s rest x := by
  obtain ⟨-, e⟩ | ⟨hlt, front, hf, e⟩ := initShape_tasks h
  · rw [ht] at e; cases e
  · obtain e | ⟨hi, f, hf, rfl⟩ := hf.head_cases (ht ▸ e)
    · obtain ⟨n, hn⟩ := initProgram_drop_odd s.cfg s.istep hlt
      obtain ⟨rfl, rfl⟩ := List.cons.inj (e.trans hn)
      exact Iff.mpr (phaseShape_of_init hr) ⟨rfl, .inl rfl⟩
    · refine headAllowed_of_inner hi (fun front' hf' => ?_) ⟨rfl, .inr (.inr ⟨by simp [failFsm, hr], hlt⟩)⟩
      exact Iff.mpr (phaseShape_of_init hr) ⟨h.1, .inr ⟨hlt, front' ++ f, hf'.append hf, (List.append_assoc ..).symm⟩⟩

/-- A request that runs on the ready display leaves it ready when it is aborted. -/
theorem phaseShape_abort_ready {s : State} (hr : s.running ≠ some .init) (hfsm : s.fsm = .ready) (hstep : s.istep = 9) :
    phaseShape (release { s with fsm := failFsm s.running s.fsm }) :=
  ⟨rfl, .inr (.inl ⟨by simp [failFsm, hr, hfsm], hstep⟩)⟩

/-- The head of a running WRSTR: an inner operation, or the last task, which is one of its loop. -/
theorem wrstrShape_head {s : State} {x : Task} {rest : List Task} (hr : s.running = some .wrstr) (h : wrstrShape s)
    (ht : s.todo = x :: rest) : headAllowed s rest x := by
  obtain ⟨hfsm, hstep, htxt, hidx, front, hf, hd⟩ := id h
  have habort := phaseShape_abort_ready (by simp [hr]) hfsm hstep
  obtain e | ⟨hlt, e⟩ | ⟨e, -⟩ := hd
  · obtain e | ⟨hi, f, hf, rfl⟩ := AllInner.head_cases hf (ht ▸ e)
    · obtain ⟨rfl, rfl⟩ := List.cons.inj e
      exact ⟨hr, h, rfl⟩
    · refine headAllowed_of_inner hi (fun front' hf' => ?_) habort
      exact Iff.mpr (phaseShape_of_wrstr hr)
        ⟨hfsm, hstep, htxt, hidx, front' ++ f, hf'.append hf, .inl (List.append_assoc ..).symm⟩
  · obtain e | ⟨hi, f, hf, rfl⟩ := AllInner.head_cases hf (ht ▸ e)
    · obtain ⟨rfl, rfl⟩ := List.cons.inj e
      exact ⟨hr, h, rfl, hlt⟩
    · refine headAllowed_of_inner hi (fun front' hf' => ?_) habort
      exact Iff.mpr (phaseShape_of_wrstr hr)
        ⟨hfsm, hstep, htxt, hidx, front' ++ f, hf'.append hf, .inr (.inl ⟨hlt, (List.append_assoc ..).symm⟩)⟩
  · rw [ht] at e; cases e

/-- What stands at the head of the sequencer, in any phase. -/
theorem phaseShape_head {s : State} {x : Task} {rest : List Task} (h : phaseShape s) (ht : s.todo = x :: rest) :
    headAllowed s rest x := by
  obtain hr | ⟨job, hr⟩ := Option.eq_none_or_eq_some s.running
  · obtain ⟨e, -⟩ := (phaseShape_of_idle hr).1 h
    rw [ht] at e; cases e
  · cases job with
    | init => exact initShape_head hr ((phaseShape_of_init hr).1 h) ht
    | clear =>
      obtain ⟨hfsm, hstep, hall⟩ := (phaseShape_of_clear hr).1 h
      obtain ⟨hi, hrest⟩ := List.forall_mem_cons.1 (ht ▸ hall)
      refine headAllowed_of_inner hi (fun front hf => ?_) (phaseShape_abort_ready (by simp [hr]) hfsm hstep)
      exact Iff.mpr (phaseShape_of_clear hr) ⟨hfsm, hstep, hf.append hrest⟩
    | wrstr => exact wrstrShape_head hr ((phaseShape_of_wrstr hr).1 h) ht

/-- With nothing left to do, whatever runs has reached its end. -/
theorem phaseShape_complete {s : State} (h : phaseShape s) (ht : s.todo = []) : phaseShape (complete s) := by
  refine ⟨rfl, ?_⟩
  obtain hr | ⟨job, hr⟩ := Option.eq_none_or_eq_some s.running
  · exact ((phaseShape_of_idle hr).1 h).2
  · cases job with
    | init =>
      obtain ⟨hfsm, htodo⟩ := (phaseShape_of_init hr).1 h
      obtain ⟨h9, -⟩ | ⟨hlt, front, -, e⟩ := initShape_tasks ⟨hfsm, htodo⟩
      · exact .inr (.inl ⟨by rw [complete_fsm, hfsm, h9]; rfl, h9⟩)
      · obtain ⟨n, hn⟩ := initProgram_drop_odd s.cfg s.istep hlt
        simp [ht, hn] at e
    | clear =>
      obtain ⟨hfsm, hstep, -⟩ := (phaseShape_of_clear hr).1 h
      exact .inr (.inl ⟨hfsm, hstep⟩)
    | wrstr =>
      obtain ⟨hfsm, hstep, -⟩ := (phaseShape_of_wrstr hr).1 h
      exact .inr (.inl ⟨hfsm, hstep⟩)

/-! ### What is left to run -/

/-- What a step inside a request leaves as it was: the parameters, the backlight latch, the request and its operands. -/
structure SameRequest (s t : State) : Prop where
  cfg : t.cfg = s.cfg
  bl : t.bl = s.bl
  busy : t.busy = s.busy
  running : t.running = s.running
  txt : t.txt = s.txt
  len : t.len = s.len
  row : t.row = s.row
  col : t.col = s.col

theorem SameRequest.expansion_eq {s t : State} (h : SameRequest s t) : expansion t = expansion s :=
  expansion_congr h.cfg h.bl h.txt h.len h.row h.col h.running

/-- What is left to run behind the head of the sequencer. -/
theorem remaining_cons {s : State} {x : Task} {rest : List Task} (ht : s.todo = x :: rest) :
    remaining s = taskPrims s x ++ rest.flatMap (taskPrims s) := by simp [remaining, ht]

/-- A list known from a place on is known from the next place on, and is longer than that place. -/
theorem drop_succ_of_drop_eq_cons {α : Type} {l r : List α} {n : Nat} {p : α} (h : p :: r = l.drop n) :
    n + 1 ≤ l.length ∧ r = l.drop (n + 1) := by
  refine ⟨?_, by rw [← List.tail_drop, ← h, List.tail_cons]⟩
  have hlen := congrArg List.length h
  rw [List.length_cons, List.length_drop] at hlen
  omega

/-- The text from an index inside it on is its byte there and the text from the next index on. -/
theorem textFrom_of_read {s : State} {b : Byte} (hlt : s.idx < s.len) (hb : Memory.read s.txt s.idx = some b) :
    textFrom s s.idx = b :: textFrom s (s.idx + 1) := by
  obtain ⟨k, hk⟩ : ∃ k, s.len - s.idx = k + 1 := ⟨s.len - s.idx - 1, by omega⟩
  have hk' : s.len - (s.idx + 1) = k := by omega
  rw [textFrom, textFrom, hk, hk', List.range'_succ, List.filterMap_cons_some hb]

/-- No text is left at its end. -/
theorem textFrom_of_not_lt {s : State} (h : ¬ s.idx < s.len) : textFrom s s.idx = [] := by
  have hk : s.len - s.idx = 0 := by omega
  rw [textFrom, hk]
  rfl

/-! ### The kinds of step that keep the invariant -/

variable {s t : State}

/-- A step inside a request that leaves `upc` and what is left to run. -/
theorem SafeState.of_silent (hs : SafeState s) (h : SameRequest s t) (hupc : t.upc = s.upc)
    (hrem : remaining t = remaining s) (hshape : phaseShape t) : SafeState t where
  cfgOk := by rw [h.cfg]; exact hs.cfgOk
  backlight := h.bl.trans hs.backlight
  busyRuns := by rw [h.busy, h.running]; exact hs.busyRuns
  textForm := by rw [h.txt]; exact hs.textForm
  upcBound := by rw [h.busy, h.expansion_eq, hupc]; exact hs.upcBound
  position := by rw [h.busy, h.expansion_eq, hupc, hrem]; exact hs.position
  shape := hshape

/-- A step inside a request that performs the first primitive left to run and advances `upc`. -/
theorem SafeState.of_primitive {p : Prim} (hs : SafeState s) (h : SameRequest s t) (hupc : t.upc = s.upc + 1)
    (hrem : remaining s = p :: remaining t) (hshape : phaseShape t) : SafeState t where
  cfgOk := by rw [h.cfg]; exact hs.cfgOk
  backlight := h.bl.trans hs.backlight
  busyRuns := by rw [h.busy, h.running]; exact hs.busyRuns
  textForm := by rw [h.txt]; exact hs.textForm
  upcBound hb := by
    rw [h.expansion_eq, hupc]
    exact (drop_succ_of_drop_eq_cons (hrem ▸ hs.position (h.busy ▸ hb))).1
  position hb := by
    rw [h.expansion_eq, hupc]
    exact (drop_succ_of_drop_eq_cons (hrem ▸ hs.position (h.busy ▸ hb))).2
  shape := hshape

/-- A state in which no request runs. -/
theorem SafeState.of_idle (hcfg : t.cfg.wf) (hbl : t.bl = true) (htxt : Memory.wf t.txt) (hbusy : t.busy = false)
    (hrun : t.running = none) (hshape : phaseShape t) : SafeState t where
  cfgOk := hcfg
  backlight := hbl
  busyRuns := by rw [hbusy, hrun]; rfl
  textForm := htxt
  upcBound hb := by rw [hbusy] at hb; cases hb
  position hb := by rw [hbusy] at hb; cases hb
  shape := hshape

/-- An accepted request, whose program stands for its expansion. -/
theorem SafeState.of_accept {job : Job} {prog : List Task} (hcfg : s.cfg.wf) (hbl : s.bl = true) (htxt : Memory.wf s.txt)
    (hrem : remaining (accept job prog s) = expansion (accept job prog s)) (hshape : phaseShape (accept job prog s)) :
    SafeState (accept job prog s) where
  cfgOk := hcfg
  backlight := hbl
  busyRuns := rfl
  textForm := htxt
  upcBound _ := Nat.zero_le _
  position _ := hrem
  shape := hshape

/-! ### The steps -/

/-- An operation taken from the sequencer and replaced by its expansion leaves the request it belongs to. -/
theorem Quiet.sameRequest {rest : List Task} (h : Quiet { s with todo := rest } t) : SameRequest s t := by
  obtain ⟨⟨hcfg, hbl, -⟩, htxt, ⟨-, -, hbusy, hrun, -⟩, -, hrow, hcol, -, hlen⟩ := h
  exact ⟨hcfg, hbl, hbusy, hrun, htxt, hlen, hrow, hcol⟩

/-- It leaves the place in the expansion. -/
theorem Quiet.upc_eq (h : Quiet s t) : t.upc = s.upc := by
  obtain ⟨-, -, -, ⟨-, -, -, hupc, -⟩, -⟩ := h
  exact hupc

/-- It leaves what every task stands for. -/
theorem Quiet.taskPrims_eq (h : Quiet s t) : taskPrims t = taskPrims s := by
  obtain ⟨⟨hcfg, hbl, -⟩, htxt, -, -, -, -, hidx, hlen⟩ := h
  exact taskPrims_congr hcfg hbl htxt hidx hlen

/-- Of what the shape of the phase depends on it changes the tasks alone. -/
theorem Quiet.phaseShape_of_todo (h : Quiet s t) (hs : phaseShape { s with todo := t.todo }) : phaseShape t := by
  obtain ⟨⟨hcfg, -⟩, htxt, ⟨hfsm, histep, -, hrun, -⟩, -, -, -, hidx, hlen⟩ := h
  simpa only [phaseShape, initShape, wrstrShape, hcfg, htxt, hfsm, histep, hrun, hidx, hlen] using hs

/-- An inner operation at the head of the sequencer keeps the invariant. -/
theorem exec_inner_keeps_safe {i : Instr} {rest : List Task} (hs : SafeState s) (ht : s.todo = .op i :: rest)
    (h : exec i { s with todo := rest } = .next t) : SafeState t := by
  obtain ⟨hi, hput, habort⟩ := phaseShape_head hs.shape ht
  have hrem := remaining_cons ht
  obtain ⟨b, hx, e⟩ | ⟨k, hx, e⟩ | ⟨front, u, e, hu, hf, hx, hq⟩ := inner_exec i { s with todo := rest } hi
  · rw [show taskPrims s (.op i) = [.buswr b] from hx] at hrem
    obtain ⟨rs, d, rfl | rfl⟩ := busWrite_cases (e.symm.trans h)
    · exact hs.of_primitive ⟨rfl, rfl, rfl, rfl, rfl, rfl, rfl, rfl⟩ rfl hrem (hput [] (AllInner.nil _))
    · exact .of_idle hs.cfgOk hs.backlight hs.textForm rfl rfl habort
  · rw [show taskPrims s (.op i) = [.wait k] from hx] at hrem
    obtain rfl := Host.Outcome.next.inj (e.symm.trans h)
    exact hs.of_primitive ⟨rfl, rfl, rfl, rfl, rfl, rfl, rfl, rfl⟩ rfl hrem (hput [] (AllInner.nil _))
  · obtain rfl := Host.Outcome.next.inj (e.symm.trans h)
    have hprims : taskPrims u = taskPrims s := hq.taskPrims_eq
    refine hs.of_silent hq.sameRequest hq.upc_eq ?_ (hq.phaseShape_of_todo ?_)
    · rw [remaining, hu, hprims, List.flatMap_append, hrem]
      exact congrArg (· ++ _) hx.symm
    · rw [hu]
      exact hput front hf

/-- Every request word is one of the three requests (R97). -/
theorem decodePort_cases {r : Request} {i : Instr} (h : decodePort r = some i) :
    i = .init ∨ i = .clear ∨ ∃ row col, i = .wrstr row col := by
  have hw : decode .req r.word.toNat = .ok i := by
    unfold decodePort decode? at h
    split at h
    · next j hj => rw [hj, Option.some.inj h]
    · cases h
  have hlt : r.word.toNat < 2 ^ WordClass.req.width := r.word.isLt
  rw [decode, if_pos hlt] at hw
  unfold decodeReq at hw
  split at hw
  · exact .inl (Except.ok.inj hw).symm
  · exact .inr (.inl (Except.ok.inj hw).symm)
  · exact .inr (.inr ⟨_, _, (Except.ok.inj hw).symm⟩)
  · cases hw

/-- The program of INIT stands for its expansion (R100). -/
theorem flatMap_initProgram (s : State) : (initProgram s.cfg).flatMap (taskPrims s) = Expand.init s.cfg s.bl := by
  simp [initProgram, taskPrims, Expand.instr, Expand.init]

/-- The program of CLEAR stands for its expansion (R100). -/
theorem flatMap_clearProgram (s : State) : (clearProgram s.cfg).flatMap (taskPrims s) = Expand.clear s.cfg s.bl := by
  simp [clearProgram, taskPrims, Expand.instr, Expand.clear]

/-- The program of WRSTR stands for the expansion of its address and of the text from `IDX` on (R100). -/
theorem flatMap_wrstrProgram (s : State) (row col : Byte) :
    (wrstrProgram row col).flatMap (taskPrims s) = Expand.wrstr s.cfg s.bl row col (textFrom s s.idx) := by
  simp [wrstrProgram, taskPrims, Expand.instr, Expand.wrstr]

/-- A refusal of an idle block keeps the invariant. -/
theorem refuse_keeps_safe (hs : SafeState s) (hrun : s.running = none) (k : ResultCode) : SafeState (refuse k s) :=
  .of_idle hs.cfgOk hs.backlight hs.textForm (by simp [hs.busyRuns, hrun]) hrun hs.shape

/-- With the display ready and no request running, `ISTEP` is 9. -/
theorem SafeState.istep_of_ready (hs : SafeState s) (hrun : s.running = none) (hfsm : s.fsm = .ready) : s.istep = 9 := by
  simpa [hfsm] using ((phaseShape_of_idle hrun).1 hs.shape).2

/-- INIT presented to an idle block keeps the invariant. -/
theorem execInit_keeps_safe (hs : SafeState s) (hrun : s.running = none) (h : execInit s = .next t) : SafeState t := by
  obtain ⟨-, e⟩ | ⟨-, -, e⟩ | ⟨-, hfsm, e⟩ := execInit_cases s <;> obtain rfl := Host.Outcome.next.inj (e.symm.trans h)
  · exact hs
  · exact refuse_keeps_safe hs hrun _
  · exact .of_accept hs.cfgOk hs.backlight hs.textForm (flatMap_initProgram _) ⟨hfsm, .inl rfl⟩

/-- CLEAR presented to an idle block keeps the invariant. -/
theorem execClear_keeps_safe (hs : SafeState s) (hrun : s.running = none) (h : execClear s = .next t) : SafeState t := by
  obtain ⟨-, e⟩ | ⟨-, -, e⟩ | ⟨-, hfsm, e⟩ := execClear_cases s <;> obtain rfl := Host.Outcome.next.inj (e.symm.trans h)
  · exact hs
  · exact refuse_keeps_safe hs hrun _
  · exact .of_accept hs.cfgOk hs.backlight hs.textForm (flatMap_clearProgram _)
      ⟨hfsm, hs.istep_of_ready hrun hfsm, by simp [clearProgram, Task.isInner, Instr.isRequest]⟩

/-- WRSTR presented to an idle block whose `TXT` space holds its text keeps the invariant. -/
theorem execWrstr_keeps_safe {row col : Byte} {text : List Byte} (hs : SafeState s) (hrun : s.running = none)
    (htxt : s.txt = Memory.ofBytes text) (h : execWrstr row col s = .next t) : SafeState t := by
  obtain ⟨-, e⟩ | ⟨-, -, e⟩ | ⟨-, -, -, e⟩ | ⟨-, hfsm, a, ha, e⟩ := execWrstr_cases row col s <;>
    obtain rfl := Host.Outcome.next.inj (e.symm.trans h)
  · exact hs
  · exact refuse_keeps_safe hs hrun _
  · exact refuse_keeps_safe hs hrun _
  · refine .of_accept hs.cfgOk hs.backlight hs.textForm (flatMap_wrstrProgram _ row col)
      ⟨hfsm, hs.istep_of_ready hrun hfsm, ⟨text, htxt, ?_⟩, Nat.zero_le _, [.op (.setaddr row col)], ?_, .inl rfl⟩
    · simp [htxt]
    · simp [Task.isInner, ha]

/-- Taking a request from the port keeps the invariant of an idle block. -/
theorem takeRequest_keeps_safe (hs : SafeState s) (hrun : s.running = none) (r : Request) (rest : List Request) :
    SafeState (takeRequest r rest s) :=
  .of_idle hs.cfgOk hs.backlight (takeRequest_keeps_wf r rest s) (by simp [hs.busyRuns, hrun]) hrun
    (Iff.mpr (phaseShape_of_idle hrun) ((phaseShape_of_idle hrun).1 hs.shape))

/-- A request taken from the port of an idle block and run keeps the invariant. -/
theorem exec_request_keeps_safe {r : Request} {rest : List Request} {i : Instr} (hs : SafeState s) (hrun : s.running = none)
    (hi : decodePort r = some i) (h : exec i (takeRequest r rest s) = .next t) : SafeState t := by
  have hu := takeRequest_keeps_safe hs hrun r rest
  obtain rfl | rfl | ⟨row, col, rfl⟩ := decodePort_cases hi
  · exact execInit_keeps_safe hu hrun h
  · exact execClear_keeps_safe hu hrun h
  · exact execWrstr_keeps_safe hu hrun rfl h

/-- An assignment of INIT keeps the invariant. -/
theorem initStep_keeps_safe {n : Fin 10} {rest : List Task} (hs : SafeState s) (ht : s.todo = .initStep n :: rest) :
    SafeState (setInitStep n { s with todo := rest }) := by
  refine hs.of_silent ⟨rfl, rfl, rfl, rfl, rfl, rfl, rfl, rfl⟩ rfl ?_ (phaseShape_head hs.shape ht)
  rw [remaining_cons ht]
  rfl

/-- The loop of WRSTR entered at a byte of the text keeps the invariant. -/
theorem textLoop_enter_keeps_safe {rest : List Task} {b : Byte} (hs : SafeState s) (ht : s.todo = .textLoop :: rest)
    (hlt : s.idx < s.len) (hb : Memory.read s.txt s.idx = some b) :
    SafeState { s with todo := .op (.wrdata b) :: .textNext :: rest } := by
  obtain ⟨hr, ⟨hfsm, hstep, htxt, hidx, -⟩, rfl⟩ := phaseShape_head hs.shape ht
  refine hs.of_silent ⟨rfl, rfl, rfl, rfl, rfl, rfl, rfl, rfl⟩ rfl ?_ (Iff.mpr (phaseShape_of_wrstr hr)
    ⟨hfsm, hstep, htxt, hidx, [.op (.wrdata b)], by simp [Task.isInner, Instr.isRequest], .inr (.inl ⟨hlt, rfl⟩)⟩)
  rw [remaining_cons ht, taskPrims, textFrom_of_read hlt hb]
  rfl

/-- The loop of WRSTR left at the end of the text keeps the invariant. -/
theorem textLoop_leave_keeps_safe {rest : List Task} (hs : SafeState s) (ht : s.todo = .textLoop :: rest)
    (hlt : ¬ s.idx < s.len) : SafeState { s with todo := rest } := by
  obtain ⟨hr, ⟨hfsm, hstep, htxt, hidx, -⟩, rfl⟩ := phaseShape_head hs.shape ht
  refine hs.of_silent ⟨rfl, rfl, rfl, rfl, rfl, rfl, rfl, rfl⟩ rfl ?_ (Iff.mpr (phaseShape_of_wrstr hr)
    ⟨hfsm, hstep, htxt, hidx, [], AllInner.nil _, .inr (.inr ⟨rfl, Nat.le_antisymm hidx (Nat.not_lt.1 hlt)⟩)⟩)
  rw [remaining_cons ht, taskPrims, textFrom_of_not_lt hlt]
  rfl

/-- The next round of WRSTR's loop keeps the invariant. -/
theorem textNext_keeps_safe {rest : List Task} (hs : SafeState s) (ht : s.todo = .textNext :: rest) :
    SafeState { s with idx := s.idx + 1, todo := .textLoop :: rest } := by
  obtain ⟨hr, ⟨hfsm, hstep, htxt, -⟩, rfl, hlt⟩ := phaseShape_head hs.shape ht
  refine hs.of_silent ⟨rfl, rfl, rfl, rfl, rfl, rfl, rfl, rfl⟩ rfl ?_ (Iff.mpr (phaseShape_of_wrstr hr)
    ⟨hfsm, hstep, htxt, hlt, [], AllInner.nil _, .inl rfl⟩)
  rw [remaining_cons ht]
  rfl

/-- A block in which BUSY is 0 runs no request. -/
theorem SafeState.running_of_not_busy (hs : SafeState s) (hb : s.busy = false) : s.running = none := by
  simpa [hb] using hs.busyRuns

/-- The end of a request keeps the invariant. -/
theorem complete_keeps_safe (hs : SafeState s) (ht : s.todo = []) : SafeState (complete s) :=
  .of_idle hs.cfgOk hs.backlight hs.textForm rfl rfl (phaseShape_complete hs.shape ht)

/-- A step with the reset line low keeps the invariant. -/
theorem advance_keeps_safe (hs : SafeState s) (h : advance exec s = .next t) : SafeState t := by
  obtain ⟨i, rest, ht, he⟩ | ⟨n, rest, ht, rfl⟩ | ⟨rest, b, ht, hlt, hb, rfl⟩ | ⟨rest, ht, hlt, rfl⟩ | ⟨rest, ht, rfl⟩ |
    ⟨ht, -, rfl⟩ | ⟨-, -, -, rfl⟩ | ⟨r, rest, i, -, hb, -, hi, he⟩ | ⟨r, rest, -, hb, -, -, rfl⟩ := advance_cases h
  · exact exec_inner_keeps_safe hs ht he
  · exact initStep_keeps_safe hs ht
  · exact textLoop_enter_keeps_safe hs ht hlt hb
  · exact textLoop_leave_keeps_safe hs ht hlt
  · exact textNext_keeps_safe hs ht
  · exact complete_keeps_safe hs ht
  · exact hs
  · exact exec_request_keeps_safe hs (hs.running_of_not_busy hb) hi he
  · have hrun := hs.running_of_not_busy hb
    exact refuse_keeps_safe (takeRequest_keeps_safe hs hrun r rest) hrun _

/-- The levels listed for the reset line are no part of the invariant. -/
theorem SafeState.with_resetIn (hs : SafeState s) (l : List Bool) : SafeState { s with resetIn := l } :=
  ⟨hs.cfgOk, hs.backlight, hs.busyRuns, hs.textForm, hs.upcBound, hs.position, hs.shape⟩

/-- Reset leads from any state of the invariant to an idle one of it. -/
theorem applyReset_keeps_safe (hs : SafeState s) : SafeState (applyReset s) :=
  .of_idle hs.cfgOk rfl hs.textForm rfl rfl ⟨rfl, .inl ⟨rfl, rfl⟩⟩

/-- Settles O55: a step is the reset line or a step with the line low, and each keeps the invariant. -/
theorem stepKeepsTheInvariant : Obligations.StepKeepsTheInvariant := by
  intro s t hs h
  obtain ⟨later, -, rfl⟩ | ⟨l, -, h⟩ := step_cases h
  · exact applyReset_keeps_safe (hs.with_resetIn later)
  · exact advance_keeps_safe (hs.with_resetIn l) h

end Sys2Proof.Machine
end

section
/-! PROOFS of the state family: a step against the expansion of the running request (O56), the frame of every operation (O48),
what no step writes (O53), the reset state (O5, O54), and the step by what it fetches (O8, O9). -/

namespace Sys2Proof.Machine

variable {s t : State}

/-! ### A step against the expansion of the running request -/

/-- What a step of a running request may do (R27, R127): nothing to the trace and the rest of the expansion; or perform the next
primitive, a delay or a bus write answered `ok`; or fail on the next bus write and end the request. -/
def PerformsNext (s t : State) : Prop :=
  (t.trace = s.trace ∧ t.upc = s.upc ∧ remaining t = remaining s) ∨
  (∃ k, (expansion s)[s.upc]? = some (.wait k) ∧ t.trace = s.trace ++ [.wait k] ∧ t.upc = s.upc + 1 ∧
    remaining s = .wait k :: remaining t) ∨
  (∃ b, (expansion s)[s.upc]? = some (.buswr b) ∧ t.trace = s.trace ++ [.wr b .ok] ∧ t.upc = s.upc + 1 ∧ t.pins = b ∧
    remaining s = .buswr b :: remaining t) ∨
  (∃ b, (expansion s)[s.upc]? = some (.buswr b) ∧ t.trace = s.trace ++ [.wr b .fail] ∧ t.upc = s.upc ∧ t.busy = false ∧
    remaining t = [])

theorem PerformsNext.silent (htrace : t.trace = s.trace) (hupc : t.upc = s.upc) (hrem : remaining t = remaining s) :
    PerformsNext s t := .inl ⟨htrace, hupc, hrem⟩

/-- The first primitive left to run is `E[upc]`. -/
theorem SafeState.expansion_at_upc {p : Prim} {ps : List Prim} (hs : SafeState s) (hb : s.busy = true)
    (hrem : remaining s = p :: ps) : (expansion s)[s.upc]? = some p := by
  rw [← List.head?_drop, ← hs.position hb, hrem, List.head?_cons]

/-- An operation replaced by its expansion emits nothing. -/
theorem Quiet.trace_eq (h : Quiet s t) : t.trace = s.trace := by
  obtain ⟨-, -, -, ⟨-, htrace, -⟩, -⟩ := h
  exact htrace

/-- An operation at the head of the sequencer, replaced by tasks with the same expansion, leaves what is left to run. -/
theorem Quiet.remaining_eq {i : Instr} {front rest : List Task} (h : Quiet { s with todo := rest } t)
    (ht : s.todo = .op i :: rest) (hfront : t.todo = front ++ rest)
    (hx : Expand.instr s.cfg s.bl [] i = front.flatMap (taskPrims s)) : remaining t = remaining s := by
  have hprims : taskPrims t = taskPrims s := h.taskPrims_eq
  rw [remaining_cons ht, remaining, hfront, hprims, List.flatMap_append, ← hx, taskPrims]

/-- The operation at the head of the sequencer performs the next primitive, or none. -/
theorem exec_inner_performs_next {i : Instr} {rest : List Task} (hs : SafeState s) (hb : s.busy = true)
    (ht : s.todo = .op i :: rest) (h : exec i { s with todo := rest } = .next t) : PerformsNext s t := by
  obtain ⟨hi, -, -⟩ := phaseShape_head hs.shape ht
  have hrem : remaining s = Expand.instr s.cfg s.bl [] i ++ _ := remaining_cons ht
  obtain ⟨b, hx, e⟩ | ⟨k, hx, e⟩ | ⟨front, u, e, hu, -, hx, hq⟩ := inner_exec i { s with todo := rest } hi
  · rw [show Expand.instr s.cfg s.bl [] i = [.buswr b] from hx] at hrem
    have hat := hs.expansion_at_upc hb hrem
    obtain ⟨rs, d, rfl | rfl⟩ := busWrite_cases (e.symm.trans h)
    · exact .inr (.inr (.inl ⟨b, hat, rfl, rfl, rfl, hrem⟩))
    · exact .inr (.inr (.inr ⟨b, hat, rfl, rfl, rfl, rfl⟩))
  · rw [show Expand.instr s.cfg s.bl [] i = [.wait k] from hx] at hrem
    obtain rfl := Host.Outcome.next.inj (e.symm.trans h)
    exact .inr (.inl ⟨k, hs.expansion_at_upc hb hrem, rfl, rfl, hrem⟩)
  · obtain rfl := Host.Outcome.next.inj (e.symm.trans h)
    exact .silent hq.trace_eq hq.upc_eq (hq.remaining_eq ht hu hx)

/-- An assignment of INIT stands for no primitive. -/
theorem remaining_initStep {n : Fin 10} {rest : List Task} (ht : s.todo = .initStep n :: rest) :
    remaining (setInitStep n { s with todo := rest }) = remaining s := by
  rw [remaining_cons ht]
  rfl

/-- The loop of WRSTR entered at a byte of the text stands for the same primitives as its body and the round after it. -/
theorem remaining_textLoop_enter {rest : List Task} {b : Byte} (ht : s.todo = .textLoop :: rest) (hlt : s.idx < s.len)
    (hb : Memory.read s.txt s.idx = some b) :
    remaining { s with todo := .op (.wrdata b) :: .textNext :: rest } = remaining s := by
  rw [remaining_cons ht, taskPrims, textFrom_of_read hlt hb]
  rfl

/-- The loop of WRSTR at the end of the text stands for no primitive. -/
theorem remaining_textLoop_leave {rest : List Task} (ht : s.todo = .textLoop :: rest) (hlt : ¬ s.idx < s.len) :
    remaining { s with todo := rest } = remaining s := by
  rw [remaining_cons ht, taskPrims, textFrom_of_not_lt hlt]
  rfl

/-- The next round of WRSTR's loop, the last task of the request, stands for the text from the next index on. -/
theorem remaining_textNext (ht : s.todo = [.textNext]) :
    remaining { s with idx := s.idx + 1, todo := [.textLoop] } = remaining s := by
  rw [remaining_cons ht]
  rfl

/-- The end of a request leaves nothing to run, as before it. -/
theorem remaining_complete (ht : s.todo = []) : remaining (complete s) = remaining s := by
  simp [remaining, ht]

/-- A step of a running request with the reset line low performs the next primitive, or none. -/
theorem advance_performs_next (hs : SafeState s) (hb : s.busy = true) (h : advance exec s = .next t) :
    PerformsNext s t := by
  obtain ⟨i, rest, ht, he⟩ | ⟨n, rest, ht, rfl⟩ | ⟨rest, b, ht, hlt, hr, rfl⟩ | ⟨rest, ht, hlt, rfl⟩ | ⟨rest, ht, rfl⟩ |
    ⟨ht, -, rfl⟩ | ⟨-, hb', -⟩ | ⟨r, rest, i, -, hb', -⟩ | ⟨r, rest, -, hb', -⟩ := advance_cases h
  · exact exec_inner_performs_next hs hb ht he
  · exact .silent rfl rfl (remaining_initStep ht)
  · exact .silent rfl rfl (remaining_textLoop_enter ht hlt hr)
  · exact .silent rfl rfl (remaining_textLoop_leave ht hlt)
  · obtain ⟨-, -, rfl, -⟩ := phaseShape_head hs.shape ht
    exact .silent rfl rfl (remaining_textNext ht)
  · exact .silent rfl rfl (remaining_complete ht)
  all_goals cases hb.symm.trans hb'

/-- Settles O56: the invariant says that the first primitive left to run is `E[upc]`; the head of the sequencer performs it,
fails on it, or stands for the same primitives as what replaces it. -/
theorem stepPerformsTheExpansionInOrder : Obligations.StepPerformsTheExpansionInOrder := by
  intro s t hs hb hline h
  obtain ⟨later, hr, -⟩ | ⟨l, -, h⟩ := step_cases h
  · exact absurd (by rw [hr, List.head?_cons]) hline
  · have hnext : PerformsNext { s with resetIn := l } t := advance_performs_next (hs.with_resetIn l) hb h
    exact hnext

/-! ### The frame of every operation -/

/-- What an operation leaves that makes no bus write: all outside the block, the pins and the transport's answers; the trace and
the results only grow. -/
structure OffBus (s t : State) : Prop where
  outside : sameOutside s t
  trace : s.trace <+: t.trace
  results : s.results <+: t.results
  bus : t.replies = s.replies ∧ t.pins = s.pins

/-- Writing the registers of the block, its place in the request and what is left to do. -/
theorem OffBus.write_registers (s : State) (cmd nib row col addr : Byte) (rs busy : Bool) (idx len upc nwr : Nat)
    (running : Option Job) (todo : List Task) (istep : Fin 10) :
    OffBus s { s with cmd, nib, row, col, addr, rs, busy, idx, len, upc, nwr, running, todo, istep } :=
  ⟨⟨rfl, rfl, fun _ => rfl, rfl, rfl⟩, List.prefix_rfl, List.prefix_rfl, rfl, rfl⟩

theorem OffBus.refuse (k : ResultCode) (s : State) : OffBus s (refuse k s) :=
  ⟨⟨rfl, rfl, fun _ => rfl, rfl, rfl⟩, List.prefix_rfl, List.prefix_append .., rfl, rfl⟩

theorem OffBus.delay (k : DelayClass) (s : State) : OffBus s (delay k s) :=
  ⟨⟨rfl, rfl, fun _ => rfl, rfl, rfl⟩, List.prefix_append .., List.prefix_rfl, rfl, rfl⟩

/-- The three operations that make a bus write. -/
def WritesBus (i : Instr) : Prop := (∃ b, i = .buswr b) ∨ ∃ d r, i = .eh d r ∨ i = .el d r

/-- Every operation leaves the bus alone or is one bus write. -/
theorem exec_offBus_or_busWrite {i : Instr} (h : exec i s = .next t) :
    OffBus s t ∨ (WritesBus i ∧ ∃ b, busWrite b s = .next t) := by
  cases i with
  | buswr b => exact .inr ⟨.inl ⟨b, rfl⟩, b, h⟩
  | eh d r => exact .inr ⟨.inr ⟨d, r, .inl rfl⟩, _, h⟩
  | el d r => exact .inr ⟨.inr ⟨d, r, .inr rfl⟩, _, h⟩
  | wait k =>
    obtain rfl := Host.Outcome.next.inj h
    exact .inl (.delay k s)
  | init =>
    obtain ⟨-, e⟩ | ⟨-, -, e⟩ | ⟨-, -, e⟩ := execInit_cases s <;> obtain rfl := Host.Outcome.next.inj (e.symm.trans h)
    · exact .inl (.write_registers ..)
    · exact .inl (.refuse ..)
    · exact .inl (.write_registers ..)
  | clear =>
    obtain ⟨-, e⟩ | ⟨-, -, e⟩ | ⟨-, -, e⟩ := execClear_cases s <;> obtain rfl := Host.Outcome.next.inj (e.symm.trans h)
    · exact .inl (.write_registers ..)
    · exact .inl (.refuse ..)
    · exact .inl (.write_registers ..)
  | wrstr row col =>
    obtain ⟨-, e⟩ | ⟨-, -, e⟩ | ⟨-, -, -, e⟩ | ⟨-, -, a, -, e⟩ := execWrstr_cases row col s <;>
      obtain rfl := Host.Outcome.next.inj (e.symm.trans h)
    · exact .inl (.write_registers ..)
    · exact .inl (.refuse ..)
    · exact .inl (.refuse ..)
    · exact .inl (.write_registers ..)
  | setaddr row col =>
    obtain ⟨-, e⟩ | ⟨a, -, e⟩ := execSetaddr_cases row col s <;> obtain rfl := Host.Outcome.next.inj (e.symm.trans h)
    · exact .inl (.refuse ..)
    · exact .inl (.write_registers ..)
  | _ =>
    obtain rfl := Host.Outcome.next.inj h
    exact .inl (.write_registers ..)

/-- A bus write uses the transport's answers up from the front. -/
theorem busWrite_replies_suffix {b : Byte} (h : busWrite b s = .next t) : t.replies <:+ s.replies := by
  obtain ⟨r, u, hu, rfl⟩ := busWrite_next h
  have hsettle : (settleWrite b r u).replies = u.replies := by cases r <;> rfl
  rw [hsettle]
  obtain ⟨q, rest, hq, e⟩ | ⟨-, e⟩ := takeReply_cases s <;> obtain ⟨-, rfl⟩ := Prod.mk.inj (hu.symm.trans e)
  · exact hq ▸ List.suffix_cons ..
  · exact List.suffix_rfl

/-- Outside the block a bus write changes nothing but the transport's answers; the trace and the results only grow. -/
theorem busWrite_frame {b : Byte} (h : busWrite b s = .next t) :
    sameOutside s t ∧ s.trace <+: t.trace ∧ s.results <+: t.results := by
  obtain ⟨rs, d, rfl | rfl⟩ := busWrite_cases h
  · exact ⟨⟨rfl, rfl, fun _ => rfl, rfl, rfl⟩, List.prefix_append .., List.prefix_rfl⟩
  · exact ⟨⟨rfl, rfl, fun _ => rfl, rfl, rfl⟩, List.prefix_append .., List.prefix_append ..⟩

/-- Settles O48: an operation leaves the bus alone or is one bus write, and each has its frame. -/
theorem noOperationWritesParametersTextOrRequests : Obligations.NoOperationWritesParametersTextOrRequests := by
  intro i s t h
  obtain ⟨hout, htrace, hres, hbus⟩ | ⟨hi, b, hw⟩ := exec_offBus_or_busWrite h
  · exact ⟨hout, htrace, hres, hbus.1 ▸ List.suffix_rfl, .inl hbus⟩
  · obtain ⟨hout, htrace, hres⟩ := busWrite_frame hw
    exact ⟨hout, htrace, hres, busWrite_replies_suffix hw, .inr hi⟩

/-! ### What no step writes -/

/-- No operation writes the parameters or the backlight latch. -/
theorem exec_keeps_cfg_bl {i : Instr} (h : exec i s = .next t) : t.cfg = s.cfg ∧ t.bl = s.bl := by
  obtain ⟨⟨hcfg, hbl, -⟩, -⟩ := noOperationWritesParametersTextOrRequests i s t h
  exact ⟨hcfg, hbl⟩

/-- No step with the reset line low writes them. -/
theorem advance_keeps_cfg_bl (h : advance exec s = .next t) : t.cfg = s.cfg ∧ t.bl = s.bl := by
  obtain ⟨i, rest, -, he⟩ | ⟨n, rest, -, rfl⟩ | ⟨rest, b, -, -, -, rfl⟩ | ⟨rest, -, -, rfl⟩ | ⟨rest, -, rfl⟩ |
    ⟨-, -, rfl⟩ | ⟨-, -, -, rfl⟩ | ⟨r, rest, i, -, -, -, -, he⟩ | ⟨r, rest, -, -, -, -, rfl⟩ := advance_cases h
  · have hop := exec_keeps_cfg_bl he
    exact hop
  · exact ⟨rfl, rfl⟩
  · exact ⟨rfl, rfl⟩
  · exact ⟨rfl, rfl⟩
  · exact ⟨rfl, rfl⟩
  · exact ⟨rfl, rfl⟩
  · exact ⟨rfl, rfl⟩
  · have hreq := exec_keeps_cfg_bl he
    exact hreq
  · exact ⟨rfl, rfl⟩

/-- Settles O53: reset sets the backlight latch and keeps the parameters; every other step keeps both. -/
theorem parametersAndBacklightStay : Obligations.ParametersAndBacklightStay := by
  intro s t h
  obtain ⟨later, -, rfl⟩ | ⟨l, -, h⟩ := step_cases h
  · exact ⟨rfl, .inr rfl⟩
  · obtain ⟨hcfg, hbl⟩ := advance_keeps_cfg_bl h
    exact ⟨hcfg, .inl hbl⟩

/-! ### The reset state -/

/-- Settles O5: each field of the reset state is the value listed. -/
theorem resetStateHoldsTheSpecValues : Obligations.ResetStateHoldsTheSpecValues := ⟨rfl, rfl, rfl, rfl, rfl, rfl, rfl, rfl⟩

/-- The default parameters meet R7. -/
theorem default_config_wf : Config.default.wf := by decide

/-- Settles O54: at reset no request runs, `FSM` is `PoweredUnknown` and `ISTEP` is 0. -/
theorem resetMeetsTheInvariant : Obligations.ResetMeetsTheInvariant :=
  SafeState.of_idle default_config_wf rfl reset_memory_wf rfl rfl ⟨rfl, .inl ⟨rfl, rfl⟩⟩

/-! ### The step by what it fetches -/

/-- The port reads what the decoder of request words accepts. -/
theorem decodePort_of_decode {r : Request} {i : Instr} (h : decode .req r.word.toNat = .ok i) : decodePort r = some i := by
  simp [decodePort, decode?, h]

/-- An idle block to which nothing is presented waits. -/
theorem portStep_of_no_request (h : s.requests = []) : portStep exec s = .next s := by simp [portStep, h]

/-- An idle block runs the request that stands at its port. -/
theorem portStep_of_request {r : Request} {rest : List Request} {i : Instr} (h : s.requests = r :: rest)
    (hi : decodePort r = some i) : portStep exec s = exec i (takeRequest r rest s) := by simp [portStep, h, hi]

/-- Settles O8: the port of an idle block and the head of the sequencer of any other. -/
theorem stepRunsTheFetchedOperation : Obligations.StepRunsTheFetchedOperation := by
  refine ⟨fun s r rest i hidle hq hi => ?_, fun s i rest hr ht => step_of_op hr ht⟩
  obtain ⟨hb, ht, hr⟩ := hidle
  rw [step_of_idle hr ht hb, portStep_of_request hq (decodePort_of_decode hi), takeRequest]

/-- The test of WRSTR's loop at a byte of the text. -/
theorem textLoopStep_enter {rest : List Task} {b : Byte} (hlt : s.idx < s.len) (hb : Memory.read s.txt s.idx = some b) :
    textLoopStep rest s = .next { s with todo := .op (.wrdata b) :: .textNext :: rest } := by
  simp [textLoopStep, hlt, hb]

/-- The test of WRSTR's loop at the end of the text. -/
theorem textLoopStep_leave {rest : List Task} (h : ¬ s.idx < s.len) : textLoopStep rest s = .next { s with todo := rest } :=
  if_neg h

/-- The end of a request of which nothing is left, with its whole next state. -/
theorem complete_of_done (ht : s.todo = []) :
    complete s = { s with busy := false, running := none, result := ⟨.ok, s.result.failIdx⟩,
                          results := s.results ++ [⟨.ok, s.result.failIdx⟩] } := by
  simp [complete, release, giveResult, ht]

/-- Settles O9: each task that is no operation by its own step, then the end of a request and the waiting at the port. -/
theorem stepsBetweenOperations : Obligations.StepsBetweenOperations := by
  refine ⟨fun s n rest hr ht => step_of_task hr ht, fun s rest hr ht hlt => ?_, fun s rest b hr ht hlt hb => ?_,
    fun s rest hr ht => step_of_task hr ht, fun s hr ht hb => ?_, fun s hidle hq => ?_⟩
  · rw [step_of_task hr ht]
    exact textLoopStep_leave hlt
  · rw [step_of_task hr ht]
    exact textLoopStep_enter hlt hb
  · rw [step_of_done hr ht hb, complete_of_done ht]
  · obtain ⟨hb, ht, hr⟩ := hidle
    rw [step_of_idle hr ht hb, portStep_of_no_request hq]

end Sys2Proof.Machine
end

section
/-! PROOFS of the memory family: the `TXT` space (O51), the trace of a step (O52), the port of a busy block (O45), and what the
controller latches from WRSTR (O42). -/

namespace Sys2Proof.Machine

variable {s t : State}

/-! ### The `TXT` space -/

/-- A text loaded from an address on reads as the text, counted from that address. -/
theorem Memory.read_ofBytesFrom (text : List Byte) : ∀ a j, Memory.read (Memory.ofBytesFrom a text) (a + j) = text[j]? := by
  induction text with
  | nil => intro a j; rfl
  | cons b bs ih =>
    intro a j
    rw [Memory.ofBytesFrom_cons, Memory.read_cons]
    cases j with
    | zero => exact if_pos rfl
    | succ j =>
      rw [if_neg (by omega), List.getElem?_cons_succ, ← ih (a + 1) j, Nat.add_right_comm, Nat.add_assoc]

/-- Settles O51: a text is loaded from address 0 on. -/
theorem textSpaceReadsAsTheText : Obligations.TextSpaceReadsAsTheText := by
  intro text j
  rw [Memory.ofBytes, ← Memory.read_ofBytesFrom text 0 j, Nat.zero_add]

/-! ### A step as at most one operation -/

/-- A step with the reset line low is, after a change that emits nothing and, in a busy block, takes nothing from the port, one
operation or the end of the step. -/
theorem advance_exec_or_silent (h : advance exec s = .next t) :
    ∃ u, (t = u ∨ ∃ i, exec i u = .next t) ∧ u.trace = s.trace ∧ (s.busy = true → u.requests = s.requests) := by
  obtain ⟨i, rest, -, he⟩ | ⟨n, rest, -, rfl⟩ | ⟨rest, b, -, -, -, rfl⟩ | ⟨rest, -, -, rfl⟩ | ⟨rest, -, rfl⟩ |
    ⟨-, -, rfl⟩ | ⟨-, -, -, rfl⟩ | ⟨r, rest, i, -, hidle, -, -, he⟩ | ⟨r, rest, -, hidle, -, -, rfl⟩ := advance_cases h
  · exact ⟨_, .inr ⟨i, he⟩, rfl, fun _ => rfl⟩
  · exact ⟨_, .inl rfl, rfl, fun _ => rfl⟩
  · exact ⟨_, .inl rfl, rfl, fun _ => rfl⟩
  · exact ⟨_, .inl rfl, rfl, fun _ => rfl⟩
  · exact ⟨_, .inl rfl, rfl, fun _ => rfl⟩
  · exact ⟨_, .inl rfl, rfl, fun _ => rfl⟩
  · exact ⟨_, .inl rfl, rfl, fun _ => rfl⟩
  · exact ⟨_, .inr ⟨i, he⟩, rfl, fun hb => absurd hb (by simp [hidle])⟩
  · exact ⟨_, .inl rfl, rfl, fun hb => absurd hb (by simp [hidle])⟩

/-- The three requests (R102). -/
theorem isRequest_cases {i : Instr} (hi : i.isRequest = true) : i = .init ∨ i = .clear ∨ ∃ row col, i = .wrstr row col := by
  cases i with
  | init => exact .inl rfl
  | clear => exact .inr (.inl rfl)
  | wrstr row col => exact .inr (.inr ⟨row, col, rfl⟩)
  | _ => cases hi

/-! ### The trace of a step -/

/-- The trace is as it was, or has one event more. -/
def EmitsAtMostOne (s t : State) : Prop := t.trace = s.trace ∨ ∃ e, t.trace = s.trace ++ [e]

/-- A request emits nothing itself: it is not taken, refused, or accepted. -/
theorem exec_request_trace {i : Instr} (hi : i.isRequest = true) (h : exec i s = .next t) : t.trace = s.trace := by
  obtain rfl | rfl | ⟨row, col, rfl⟩ := isRequest_cases hi
  · obtain ⟨-, e⟩ | ⟨-, -, e⟩ | ⟨-, -, e⟩ := execInit_cases s <;>
      obtain rfl := Host.Outcome.next.inj (e.symm.trans h) <;> rfl
  · obtain ⟨-, e⟩ | ⟨-, -, e⟩ | ⟨-, -, e⟩ := execClear_cases s <;>
      obtain rfl := Host.Outcome.next.inj (e.symm.trans h) <;> rfl
  · obtain ⟨-, e⟩ | ⟨-, -, e⟩ | ⟨-, -, -, e⟩ | ⟨-, -, a, -, e⟩ := execWrstr_cases row col s <;>
      obtain rfl := Host.Outcome.next.inj (e.symm.trans h) <;> rfl

/-- SETADDR emits nothing itself: its row is refused, or it is replaced by the byte to send. -/
theorem exec_setaddr_trace {row col : Byte} (h : exec (.setaddr row col) s = .next t) : t.trace = s.trace := by
  obtain ⟨-, e⟩ | ⟨a, -, e⟩ := execSetaddr_cases row col s <;> obtain rfl := Host.Outcome.next.inj (e.symm.trans h) <;> rfl

/-- An operation that is no inner one is a request or a SETADDR. -/
theorem request_or_setaddr_of_not_inner {c : Config} {i : Instr} (hi : (Task.op i).isInner c = false) :
    i.isRequest = true ∨ ∃ row col, i = .setaddr row col := by
  cases i with
  | setaddr row col => exact .inr ⟨row, col, rfl⟩
  | init => exact .inl rfl
  | clear => exact .inl rfl
  | wrstr row col => exact .inl rfl
  | _ => cases hi

/-- Every operation is one bus write, one delay, or emits nothing. -/
theorem exec_emits_at_most_one {i : Instr} (h : exec i s = .next t) : EmitsAtMostOne s t := by
  cases hi : (Task.op i).isInner s.cfg with
  | false =>
    obtain hreq | ⟨row, col, rfl⟩ := request_or_setaddr_of_not_inner hi
    · exact .inl (exec_request_trace hreq h)
    · exact .inl (exec_setaddr_trace h)
  | true =>
    obtain ⟨b, -, e⟩ | ⟨k, -, e⟩ | ⟨front, u, e, -, -, -, hq⟩ := inner_exec i s hi
    · obtain ⟨rs, d, rfl | rfl⟩ := busWrite_cases (e.symm.trans h)
      · exact .inr ⟨.wr b .ok, rfl⟩
      · exact .inr ⟨.wr b .fail, rfl⟩
    · obtain rfl := Host.Outcome.next.inj (e.symm.trans h)
      exact .inr ⟨.wait k, rfl⟩
    · obtain rfl := Host.Outcome.next.inj (e.symm.trans h)
      exact .inl hq.trace_eq

/-- Settles O52: reset emits nothing, and any other step at most the one event of its operation. -/
theorem stepEmitsAtMostOneEvent : Obligations.StepEmitsAtMostOneEvent := by
  intro s t h
  obtain ⟨later, -, rfl⟩ | ⟨l, -, h⟩ := step_cases h
  · exact .inl rfl
  · obtain ⟨u, rfl | ⟨i, he⟩, htrace, -⟩ := advance_exec_or_silent h
    · exact .inl htrace
    · have hone : EmitsAtMostOne u t := exec_emits_at_most_one he
      rwa [EmitsAtMostOne, htrace] at hone

/-! ### The port of a busy block -/

/-- `BUSY` is the first check of each request (R211). -/
theorem exec_request_of_busy {i : Instr} (hb : s.busy = true) (hi : i.isRequest = true) : exec i s = .next s := by
  obtain rfl | rfl | ⟨row, col, rfl⟩ := isRequest_cases hi <;> exact if_pos hb

/-- No operation takes a request from the port. -/
theorem exec_keeps_requests {i : Instr} (h : exec i s = .next t) : t.requests = s.requests := by
  obtain ⟨⟨-, -, -, hreq, -⟩, -⟩ := noOperationWritesParametersTextOrRequests i s t h
  exact hreq

/-- Settles O45: a request checks `BUSY` first, and only the step of an idle block takes from the port. -/
theorem busyBlockAcceptsNothing : Obligations.BusyBlockAcceptsNothing := by
  refine ⟨fun s i => exec_request_of_busy, fun s t hb h => ?_⟩
  obtain ⟨later, -, rfl⟩ | ⟨l, -, h⟩ := step_cases h
  · rfl
  · obtain ⟨u, rfl | ⟨i, he⟩, -, hport⟩ := advance_exec_or_silent h
    · exact hport hb
    · exact (exec_keeps_requests he).trans (hport hb)

/-! ### The flag masks (R7) -/

theorem flagMask_ne_zero : ∀ m ∈ Config.flagMasks, m ≠ 0#8 := by decide

/-- Distinct flag masks have no bit in common. -/
theorem flagMask_and_of_ne : ∀ m ∈ Config.flagMasks, ∀ k ∈ Config.flagMasks, m ≠ k → m &&& k = 0#8 := by decide

/-- A flag mask has no data bit. -/
theorem flagMask_data : ∀ m ∈ Config.flagMasks, m.extractLsb' 4 4 = 0#4 := by decide

/-- What R7 says of the three masks that a strobe uses. -/
structure FlagsApart (c : Config) : Prop where
  en_mem : c.enBit ∈ Config.flagMasks
  bl_mem : c.blBit ∈ Config.flagMasks
  rs_mem : c.rsBit ∈ Config.flagMasks
  bl_en : c.blBit &&& c.enBit = 0#8
  rs_en : c.rsBit &&& c.enBit = 0#8
  bl_rs : c.blBit &&& c.rsBit = 0#8

theorem flagsApart_of_wf {c : Config} (h : c.wf) : FlagsApart c := by
  obtain ⟨hen, hbl, hrs, -, hd⟩ := h
  simp only [List.nodup_cons, List.mem_cons, not_or] at hd
  obtain ⟨⟨hen_bl, hen_rs, -⟩, ⟨hbl_rs, -⟩, -⟩ := hd
  exact ⟨hen, hbl, hrs, flagMask_and_of_ne _ hbl _ hen (Ne.symm hen_bl), flagMask_and_of_ne _ hrs _ hen (Ne.symm hen_rs),
    flagMask_and_of_ne _ hbl _ hrs hbl_rs⟩

/-! ### The nibble bytes (R82, R91, R93) -/

variable {c : Config}

/-- A bootstrap nibble byte carries its nibble in the data bits. -/
theorem bootNibble_data : ∀ d, (bootNibble d).extractLsb' 4 4 = d := by decide

/-- A bootstrap nibble byte has no flag bit. -/
theorem bootNibble_and_flagMask : ∀ m ∈ Config.flagMasks, ∀ d, bootNibble d &&& m = 0#8 := by decide

theorem rsm_and {m : Byte} (h : c.rsBit &&& m = 0#8) (r : Bool) : rsm c r &&& m = 0#8 := by
  cases r with
  | false => exact BitVec.zero_and
  | true => exact h

theorem blm_and {m : Byte} (h : c.blBit &&& m = 0#8) (bl : Bool) : blm c bl &&& m = 0#8 := by
  cases bl with
  | false => exact BitVec.zero_and
  | true => exact h

theorem rsm_data (hc : FlagsApart c) (r : Bool) : (rsm c r).extractLsb' 4 4 = 0#4 := by
  cases r with
  | false => exact BitVec.extractLsb'_zero
  | true => exact flagMask_data _ hc.rs_mem

theorem blm_data (hc : FlagsApart c) (bl : Bool) : (blm c bl).extractLsb' 4 4 = 0#4 := by
  cases bl with
  | false => exact BitVec.extractLsb'_zero
  | true => exact flagMask_data _ hc.bl_mem

theorem rsm_and_rsBit (r : Bool) : rsm c r &&& c.rsBit = rsm c r := by cases r <;> simp [rsm]

/-- The register-select flag can be read from its mask. -/
theorem rsm_ne_zero (hc : FlagsApart c) (r : Bool) : (rsm c r != 0#8) = r := by
  cases r with
  | false => rfl
  | true => exact bne_iff_ne.2 (flagMask_ne_zero _ hc.rs_mem)

theorem nibbleOf_data (hc : FlagsApart c) (d : Nibble) (r : Bool) : (nibbleOf c d r).extractLsb' 4 4 = d := by
  rw [nibbleOf, BitVec.extractLsb'_or, bootNibble_data, rsm_data hc, BitVec.or_zero]

theorem nibbleOf_and_enBit (hc : FlagsApart c) (d : Nibble) (r : Bool) : nibbleOf c d r &&& c.enBit = 0#8 := by
  rw [nibbleOf, BitVec.and_or_distrib_right, bootNibble_and_flagMask _ hc.en_mem, rsm_and hc.rs_en, BitVec.or_zero]

theorem nibbleOf_and_rsBit (hc : FlagsApart c) (d : Nibble) (r : Bool) : nibbleOf c d r &&& c.rsBit = rsm c r := by
  rw [nibbleOf, BitVec.and_or_distrib_right, bootNibble_and_flagMask _ hc.rs_mem, rsm_and_rsBit, BitVec.zero_or]

/-- The high nibble byte of a byte is the nibble byte of its bits 7:4. -/
theorem hiNibble_eq_nibbleOf (b : Byte) (r : Bool) : hiNibble c b r = nibbleOf c (b.extractLsb' 4 4) r := by
  have hdata : b &&& 0xF0#8 = bootNibble (b.extractLsb' 4 4) := by
    ext i hi
    interval_cases i <;> simp [bootNibble]
  rw [hiNibble, nibbleOf, hdata]

/-- The low nibble byte of a byte is the nibble byte of its bits 3:0. -/
theorem loNibble_eq_nibbleOf (b : Byte) (r : Bool) : loNibble c b r = nibbleOf c (b.extractLsb' 0 4) r := by
  have hdata : (b <<< 4) &&& 0xF0#8 = bootNibble (b.extractLsb' 0 4) := by
    ext i hi
    interval_cases i <;> simp [bootNibble]
  rw [loNibble, nibbleOf, hdata]

/-! ### The wire bytes of a strobe (R94) -/

theorem wireHigh_and_enBit (bl : Bool) (n : Byte) : wireHigh c bl n &&& c.enBit = c.enBit := by
  ext i
  simp only [wireHigh, BitVec.getElem_and, BitVec.getElem_or]
  cases c.enBit[i] <;> simp

theorem wireLow_and_enBit (hc : FlagsApart c) (bl : Bool) (n : Byte) : wireLow c bl n &&& c.enBit = 0#8 := by
  rw [wireLow, BitVec.and_or_distrib_right, blm_and hc.bl_en, BitVec.or_zero, BitVec.and_assoc, BitVec.and_comm (~~~_),
    BitVec.and_not_self]
  exact BitVec.and_zero

/-- Clearing bits that are clear already changes nothing. -/
theorem and_not_of_and_eq_zero {x m : Byte} (h : x &&& m = 0#8) : x &&& ~~~m = x :=
  calc x &&& ~~~m = x &&& m ||| x &&& ~~~m := by rw [h, BitVec.zero_or]
    _ = x &&& (m ||| ~~~m) := BitVec.and_or_distrib_left.symm
    _ = x := by rw [BitVec.or_not_self, BitVec.and_allOnes]

/-- The low wire byte of a nibble byte, whose enable bit is 0 already. -/
theorem wireLow_nibbleOf (hc : FlagsApart c) (bl : Bool) (d : Nibble) (r : Bool) :
    wireLow c bl (nibbleOf c d r) = nibbleOf c d r ||| blm c bl := by
  rw [wireLow, and_not_of_and_eq_zero (nibbleOf_and_enBit hc d r)]

theorem wireLow_data (hc : FlagsApart c) (bl : Bool) (d : Nibble) (r : Bool) :
    (wireLow c bl (nibbleOf c d r)).extractLsb' 4 4 = d := by
  rw [wireLow_nibbleOf hc, BitVec.extractLsb'_or, nibbleOf_data hc, blm_data hc, BitVec.or_zero]

theorem wireLow_and_rsBit (hc : FlagsApart c) (bl : Bool) (d : Nibble) (r : Bool) :
    wireLow c bl (nibbleOf c d r) &&& c.rsBit = rsm c r := by
  rw [wireLow_nibbleOf hc, BitVec.and_or_distrib_right, nibbleOf_and_rsBit hc, blm_and hc.bl_rs, BitVec.or_zero]

/-! ### What the controller latches (R70, R71) -/

/-- The falling enable edge of a strobe latches its flag and its nibble. -/
theorem latchedPair_strobe (hc : FlagsApart c) (bl : Bool) (d : Nibble) (r : Bool) :
    latchedPair c (wireHigh c bl (nibbleOf c d r), .ok) (wireLow c bl (nibbleOf c d r), .ok) = [(r, d)] := by
  have hfall : wireHigh c bl (nibbleOf c d r) &&& c.enBit ≠ 0#8 ∧ wireLow c bl (nibbleOf c d r) &&& c.enBit = 0#8 :=
    ⟨by rw [wireHigh_and_enBit]; exact flagMask_ne_zero _ hc.en_mem, wireLow_and_enBit hc bl _⟩
  rw [latchedPair, if_pos ⟨rfl, rfl, hfall⟩, wireLow_and_rsBit hc, rsm_ne_zero hc, wireLow_data hc]

/-- No edge falls after a write with the enable bit clear. -/
theorem latchedOf_cons_of_low {b : Byte} {q : Reply} (h : b &&& c.enBit = 0#8) (ws : List (Byte × Reply)) :
    latchedOf c ((b, q) :: ws) = latchedOf c ws := by
  cases ws with
  | nil => rfl
  | cons w ws => rw [latchedOf, latchedPair, if_neg (fun ⟨_, _, hhigh, _⟩ => hhigh h), List.nil_append]

/-- The bus writes of a strobe, then those of what follows it. -/
theorem latched_strobe_append (bl : Bool) (n : Byte) (e : List Prim) :
    latched c ((Expand.strobe c bl n ++ e).map Prim.okEvent) =
      latchedPair c (wireHigh c bl n, .ok) (wireLow c bl n, .ok) ++
        latchedOf c ((wireLow c bl n, .ok) :: busWrites (e.map Prim.okEvent)) := rfl

/-- Nibbles strobed one after the other, each with its register-select flag, are latched in order. -/
theorem latched_strobes (hc : FlagsApart c) (bl : Bool) (ps : List (Bool × Nibble)) :
    latched c ((ps.flatMap fun p => Expand.strobe c bl (nibbleOf c p.2 p.1)).map Prim.okEvent) = ps := by
  induction ps with
  | nil => rfl
  | cons p ps ih =>
    rw [List.flatMap_cons, latched_strobe_append, latchedPair_strobe hc, latchedOf_cons_of_low (wireLow_and_enBit hc bl _)]
    exact congrArg (p :: ·) ih

/-- The nibbles of a byte with its register-select flag, high nibble first. -/
def nibblesOf (p : Bool × Byte) : List (Bool × Nibble) := [(p.1, p.2.extractLsb' 4 4), (p.1, p.2.extractLsb' 0 4)]

/-- A byte is sent as the strobes of its nibbles. -/
theorem sendbyte_eq_strobes (bl : Bool) (p : Bool × Byte) :
    Expand.sendbyte c bl p.2 p.1 = (nibblesOf p).flatMap fun q => Expand.strobe c bl (nibbleOf c q.2 q.1) := by
  simp [Expand.sendbyte, nibblesOf, hiNibble_eq_nibbleOf, loNibble_eq_nibbleOf]

/-- The nibbles of bytes pair back into the bytes. -/
theorem pairNibbles_nibblesOf (ps : List (Bool × Byte)) : pairNibbles (ps.flatMap nibblesOf) = ps := by
  induction ps with
  | nil => rfl
  | cons p ps ih =>
    obtain ⟨r, b⟩ := p
    have hjoin : b.extractLsb' 4 4 ++ b.extractLsb' 0 4 = b :=
      (BitVec.extractLsb'_append_extractLsb'_eq_extractLsb' rfl).trans BitVec.extractLsb'_eq_self
    rw [List.flatMap_cons, nibblesOf, List.cons_append, List.cons_append, List.nil_append, pairNibbles, ih, hjoin]

/-- A list of bytes, each sent with its register-select flag. -/
def sendAll (c : Config) (bl : Bool) (ps : List (Bool × Byte)) : List Prim := ps.flatMap fun p => Expand.sendbyte c bl p.2 p.1

/-- Bytes sent are latched as their nibbles. -/
theorem latched_sendAll (hc : FlagsApart c) (bl : Bool) (ps : List (Bool × Byte)) :
    latched c ((sendAll c bl ps).map Prim.okEvent) = ps.flatMap nibblesOf := by
  simp only [sendAll, sendbyte_eq_strobes, ← List.flatMap_assoc]
  exact latched_strobes hc bl _

/-- WRSTR sends the address as a command and then each byte of the text as data. -/
theorem wrstr_eq_sendAll {row col a : Byte} (ha : addrByte c row col = some a) (bl : Bool) (text : List Byte) :
    Expand.wrstr c bl row col text = sendAll c bl ((false, a) :: text.map fun b => (true, b)) := by
  simp [Expand.wrstr, Expand.setaddr, ha, Expand.text, sendAll, List.flatMap_map]

/-- Settles O42: what is latched from bytes sent is their nibbles, and these pair back into the bytes. -/
theorem wrstrDeliversAddressThenText : Obligations.WrstrDeliversAddressThenText := by
  intro c row col a text hwf ha
  rw [wrstr_eq_sendAll ha, latched_sendAll (flagsApart_of_wf hwf), pairNibbles_nibblesOf]

end Sys2Proof.Machine
end

section
/-! PROOFS of the encoding family, the words: the request word (O3), words written out (O4), and the decoder against the encoder
in both directions (O1, O2). -/

namespace Sys2Proof

open Laws

/-! ### Slices and bits (R8) -/

/-- A flag read from a word is the flag whose number stands in its bit. -/
theorem bitAt_eq {w i : Nat} {b : Bool} (h : slice w i i = bitNum b) : bitAt w i = b := by
  rw [bitAt, h]
  cases b <;> rfl

theorem ofNat_toNat_self {n : Nat} (b : BitVec n) : BitVec.ofNat n b.toNat = b := by
  rw [BitVec.ofNat_toNat, BitVec.setWidth_eq]

/-- An operation read from the number of its one operand. -/
theorem ok_ofNat_toNat {n : Nat} (f : BitVec n → Instr) (b : BitVec n) :
    (.ok (f (BitVec.ofNat n b.toNat)) : Except DecodeError Instr) = .ok (f b) := by rw [ofNat_toNat_self]

/-- A field read from a word is the bit vector whose number stands in its slice. -/
theorem ofNat_slice_eq {n w hi lo : Nat} {b : BitVec n} (h : slice w hi lo = b.toNat) : BitVec.ofNat n (slice w hi lo) = b := by
  rw [h, ofNat_toNat_self]

/-- The number of a flag read from a word is the bit. -/
theorem bitNum_bitAt (w i : Nat) : bitNum (bitAt w i) = slice w i i := by
  have hbit : slice w i i < 2 := by rw [slice, Nat.sub_self]; exact Nat.mod_lt _ (by decide)
  by_cases h : slice w i i = 1
  · simp [bitNum, bitAt, h]
  · simp [bitNum, bitAt, h]; omega

/-- R82 on the byte and on its word: with the default parameters bits 3:1 are 0. -/
theorem nibbleByteOk_default_iff : ∀ n : Byte, nibbleByteOk Config.default n = true ↔ slice n.toNat 3 1 = 0 := by decide

/-! ### The request word, and words written out -/

/-- Settles O3: the slices of the word are the three numbers it is put together from, and `op` selects the row. -/
theorem requestWordReadsOpRowCol : Obligations.RequestWordReadsOpRowCol := by
  intro op row col hop hrow hcol
  have hopField : slice (op * 2 ^ 16 + row * 2 ^ 8 + col) 17 16 = op := by simp only [slice]; omega
  have hrowField : slice (op * 2 ^ 16 + row * 2 ^ 8 + col) 15 8 = row := by simp only [slice]; omega
  have hcolField : slice (op * 2 ^ 16 + row * 2 ^ 8 + col) 7 0 = col := by simp only [slice]; omega
  have hfits : op * 2 ^ 16 + row * 2 ^ 8 + col < 2 ^ WordClass.req.width := by simp only [WordClass.width]; omega
  rw [decode, if_pos hfits]
  simp only [decodeReq, hopField, hrowField, hcolField]
  interval_cases op <;> rfl

/-- Settles O4, by evaluation of the decoder on the sixteen words. -/
theorem tableWordsDecode : Obligations.TableWordsDecode := by
  unfold Obligations.TableWordsDecode
  decide

/-! ### Decoding what the encoder writes -/

theorem decode_encode_wrstr (row col : Byte) : decode .req (encode (.wrstr row col)) = .ok (.wrstr row col) := by
  have h := requestWordReadsOpRowCol 2 row.toNat col.toNat (by decide) row.isLt col.isLt
  simpa [encode] using h

theorem decode_encode_setaddr (row col : Byte) : decode .int16 (encode (.setaddr row col)) = .ok (.setaddr row col) := by
  have hrow : slice (encode (.setaddr row col)) 15 8 = row.toNat := by simp only [encode, slice]; omega
  have hcol : slice (encode (.setaddr row col)) 7 0 = col.toNat := by simp only [encode, slice]; omega
  refine (if_pos (EncodedFits.setaddr row col)).trans ?_
  rw [ofNat_slice_eq hrow, ofNat_slice_eq hcol]

theorem decode_encode_sendbyte (c : Byte) (rs : Bool) : decode .int9 (encode (.sendbyte c rs)) = .ok (.sendbyte c rs) := by
  have := EncodedFits.bitNum_le rs
  have hc : slice (encode (.sendbyte c rs)) 7 0 = c.toNat := by simp only [encode, slice]; omega
  have hrs : slice (encode (.sendbyte c rs)) 8 8 = bitNum rs := by simp only [encode, slice]; omega
  refine (if_pos (EncodedFits.sendbyte c rs)).trans ?_
  rw [ofNat_slice_eq hc, bitAt_eq hrs]

theorem decode_encode_strobe {n : Byte} (hn : nibbleByteOk Config.default n = true) :
    decode .nibble (encode (.strobe n)) = .ok (.strobe n) := by
  have hflags : slice (encode (.strobe n)) 3 1 = 0 := (nibbleByteOk_default_iff n).1 hn
  refine (if_pos (EncodedFits.strobe n)).trans ?_
  exact (if_pos hflags).trans (ok_ofNat_toNat .strobe n)

theorem decode_encode_eh (d : Nibble) (r : Bool) : decode .phase (encode (.eh d r)) = .ok (.eh d r) := by
  have := EncodedFits.bitNum_le r
  have hflags : slice (encode (.eh d r)) 3 1 = 6 := by simp only [encode, slice]; omega
  have hd : slice (encode (.eh d r)) 7 4 = d.toNat := by simp only [encode, slice]; omega
  have hr : slice (encode (.eh d r)) 0 0 = bitNum r := by simp only [encode, slice]; omega
  refine (if_pos (EncodedFits.eh d r)).trans ?_
  simp only [decodePhase, hflags, ofNat_slice_eq hd, bitAt_eq hr]

theorem decode_encode_el (d : Nibble) (r : Bool) : decode .phase (encode (.el d r)) = .ok (.el d r) := by
  have := EncodedFits.bitNum_le r
  have hflags : slice (encode (.el d r)) 3 1 = 4 := by simp only [encode, slice]; omega
  have hd : slice (encode (.el d r)) 7 4 = d.toNat := by simp only [encode, slice]; omega
  have hr : slice (encode (.el d r)) 0 0 = bitNum r := by simp only [encode, slice]; omega
  refine (if_pos (EncodedFits.el d r)).trans ?_
  simp only [decodePhase, hflags, ofNat_slice_eq hd, bitAt_eq hr]

/-- A command byte with its leading bit set is an address set: the patterns of the other commands have a leading 0. -/
theorem decodeCmd_of_bit7 {w : Nat} (h : slice w 7 7 = 1) : decodeCmd w = .ok (.cmdSetddram (BitVec.ofNat 7 (slice w 6 0))) := by
  have hclear : w ≠ 0x01 := by rintro rfl; cases h
  have hhome : w ≠ 0x02 := by rintro rfl; cases h
  have hentry : slice w 7 2 ≠ 1 := by simp only [slice] at *; omega
  have hdispctl : slice w 7 3 ≠ 1 := by simp only [slice] at *; omega
  have hfuncset : slice w 7 5 ≠ 1 := by simp only [slice] at *; omega
  rw [decodeCmd, if_neg hclear, if_neg hhome, if_neg hentry, if_neg hdispctl, if_neg hfuncset, if_pos h]

theorem decode_encode_cmdSetddram (a : BitVec 7) : decode .cmd (encode (.cmdSetddram a)) = .ok (.cmdSetddram a) := by
  have hlead : slice (encode (.cmdSetddram a)) 7 7 = 1 := by simp only [encode, slice]; omega
  have ha : slice (encode (.cmdSetddram a)) 6 0 = a.toNat := by simp only [encode, slice]; omega
  refine (if_pos (EncodedFits.cmdSetddram a)).trans ?_
  simp only [decodeCmd_of_bit7 hlead, ofNat_slice_eq ha]

/-- Settles O1, one operation at a time. -/
theorem decodeOfEncode : Obligations.DecodeOfEncode := by
  intro i hi
  cases i with
  | init => rfl
  | clear => rfl
  | wrstr row col => exact decode_encode_wrstr row col
  | setaddr row col => exact decode_encode_setaddr row col
  | wrdata b => exact (if_pos b.isLt).trans (ok_ofNat_toNat .wrdata b)
  | sendbyte c rs => exact decode_encode_sendbyte c rs
  | bootnib v => exact (if_pos v.isLt).trans (ok_ofNat_toNat .bootnib v)
  | strobe n => exact decode_encode_strobe hi
  | buswr b => exact (if_pos b.isLt).trans (ok_ofNat_toNat .buswr b)
  | wait k => cases k <;> rfl
  | eh d r => exact decode_encode_eh d r
  | el d r => exact decode_encode_el d r
  | cmdClear => rfl
  | cmdHome => rfl
  | cmdEntry id sh => cases id <;> cases sh <;> rfl
  | cmdDispctl d c b => cases d <;> cases c <;> cases b <;> rfl
  | cmdFuncset dl n f => cases dl <;> cases n <;> cases f <;> rfl
  | cmdSetddram a => exact decode_encode_cmdSetddram a
  | data b => exact (if_pos b.isLt).trans (ok_ofNat_toNat .data b)

/-! ### What the decoder accepts -/

/-- The bits of a word that are read for an operation, the ignored ones cleared: the row and column fields of INIT and CLEAR
(R97), the two low bits of function set (R83). -/
def bitsRead (w : Nat) : Instr → Nat
  | .init | .clear => w / 2 ^ 16 * 2 ^ 16
  | .cmdFuncset _ _ _ => w / 4 * 4
  | .wrstr _ _ | .setaddr _ _ | .wrdata _ | .sendbyte _ _ | .bootnib _ | .strobe _ | .buswr _ | .wait _ | .eh _ _ | .el _ _
  | .cmdClear | .cmdHome | .cmdEntry _ _ | .cmdDispctl _ _ _ | .cmdSetddram _ | .data _ => w

/-- The operation is well formed and of the class, and the word is its own but for the bits that are ignored. -/
structure ReadFrom (k : WordClass) (w : Nat) (i : Instr) : Prop where
  wf : i.wf = true
  ofClass : i.wordClass = k
  word : encode i = bitsRead w i

theorem decodeReq_readFrom {w : Nat} {i : Instr} (hw : w < 2 ^ 18) (h : decodeReq w = .ok i) : ReadFrom .req w i := by
  unfold decodeReq at h
  split at h <;> cases h
  next hop => exact ⟨rfl, rfl, by simp only [encode, bitsRead, slice] at *; omega⟩
  next hop => exact ⟨rfl, rfl, by simp only [encode, bitsRead, slice] at *; omega⟩
  next hop => exact ⟨rfl, rfl, by simp only [encode, bitsRead, slice, BitVec.toNat_ofNat] at *; omega⟩

theorem decodeNibble_readFrom {w : Nat} {i : Instr} (hw : w < 2 ^ 8) (h : decodeNibble w = .ok i) : ReadFrom .nibble w i := by
  unfold decodeNibble at h
  split at h
  case isTrue hflags =>
    cases h
    have hword : (BitVec.ofNat 8 w).toNat = w := by rw [BitVec.toNat_ofNat, Nat.mod_eq_of_lt hw]
    exact ⟨(nibbleByteOk_default_iff _).2 (by rw [hword]; exact hflags), rfl, hword⟩
  case isFalse => cases h

theorem encodeWsel_decodeWsel {w : Nat} (hw : w < 2 ^ 2) : encodeWsel (decodeWsel w) = w := by
  revert w; decide

theorem decodePhase_readFrom {w : Nat} {i : Instr} (hw : w < 2 ^ 8) (h : decodePhase w = .ok i) : ReadFrom .phase w i := by
  unfold decodePhase at h
  split at h <;> cases h
  next hflags =>
    exact ⟨rfl, rfl, by simp only [encode, bitsRead, bitNum_bitAt, slice, BitVec.toNat_ofNat] at *; omega⟩
  next hflags =>
    exact ⟨rfl, rfl, by simp only [encode, bitsRead, bitNum_bitAt, slice, BitVec.toNat_ofNat] at *; omega⟩

theorem decodeCmd_readFrom {w : Nat} {i : Instr} (hw : w < 2 ^ 8) (h : decodeCmd w = .ok i) : ReadFrom .cmd w i := by
  unfold decodeCmd at h
  split_ifs at h with hclear hhome hentry hdispctl hfuncset hsetddram <;> cases h
  · exact ⟨rfl, rfl, hclear.symm⟩
  · exact ⟨rfl, rfl, hhome.symm⟩
  · exact ⟨rfl, rfl, by simp only [encode, bitsRead, bitNum_bitAt, slice] at *; omega⟩
  · exact ⟨rfl, rfl, by simp only [encode, bitsRead, bitNum_bitAt, slice] at *; omega⟩
  · exact ⟨rfl, rfl, by simp only [encode, bitsRead, bitNum_bitAt, slice] at *; omega⟩
  · exact ⟨rfl, rfl, by simp only [encode, bitsRead, slice, BitVec.toNat_ofNat] at *; omega⟩

theorem decode_readFrom {k : WordClass} {w : Nat} {i : Instr} (h : decode k w = .ok i) :
    w < 2 ^ k.width ∧ ReadFrom k w i := by
  unfold decode at h
  split at h
  case isFalse => cases h
  case isTrue hw =>
    refine ⟨hw, ?_⟩
    cases k with
    | req => exact decodeReq_readFrom hw h
    | nibble => exact decodeNibble_readFrom hw h
    | phase => exact decodePhase_readFrom hw h
    | cmd => exact decodeCmd_readFrom hw h
    | int16 =>
      cases h
      exact ⟨rfl, rfl, by simp only [encode, bitsRead, slice, BitVec.toNat_ofNat, WordClass.width] at *; omega⟩
    | int9 =>
      cases h
      exact ⟨rfl, rfl, by
        simp only [encode, bitsRead, bitNum_bitAt, slice, BitVec.toNat_ofNat, WordClass.width] at *; omega⟩
    | wsel => cases h; exact ⟨rfl, rfl, encodeWsel_decodeWsel hw⟩
    | int8 => cases h; exact ⟨rfl, rfl, Nat.mod_eq_of_lt hw⟩
    | boot => cases h; exact ⟨rfl, rfl, Nat.mod_eq_of_lt hw⟩
    | wire => cases h; exact ⟨rfl, rfl, Nat.mod_eq_of_lt hw⟩
    | data => cases h; exact ⟨rfl, rfl, Nat.mod_eq_of_lt hw⟩

/-- Settles O2: the ignored bits of `bitsRead` are those the statement names, operation by operation. -/
theorem decodeAcceptsOnlyItsOwnWords : Obligations.DecodeAcceptsOnlyItsOwnWords := by
  intro k w i h
  obtain ⟨hw, hwf, hclass, hword⟩ := decode_readFrom h
  refine ⟨hwf, hclass, hw, ?_⟩
  rw [hword]
  cases i <;> simp [bitsRead]

end Sys2Proof
end

section
/-! PROOFS of the encoding family, the bytes: the nibble bytes that are built (O19, O20), read back from the strobes (O23), and
the bytes of the emitted commands (O25). -/

namespace Sys2Proof.Machine

variable {c : Config}

/-! ### The nibble bytes that are built (R82, R91, R93) -/

/-- A nibble byte has no flag bit that the register-select mask does not have. -/
theorem nibbleByte_and_flagMask {n m : Byte} (hn : nibbleByteOk c n = true) (hm : m ∈ Config.flagMasks)
    (hrs : c.rsBit &&& m = 0#8) : n &&& m = 0#8 := by
  have hdata : ∀ m ∈ Config.flagMasks, m &&& 0xF0#8 = 0#8 := by decide
  have houtside : m &&& (0xF0#8 ||| c.rsBit) = 0#8 := by
    rw [BitVec.and_or_distrib_left, hdata m hm, BitVec.and_comm, hrs, BitVec.or_zero]
  calc n &&& m = n &&& (m &&& ~~~(0xF0#8 ||| c.rsBit)) := by rw [and_not_of_and_eq_zero houtside]
    _ = n &&& ~~~(0xF0#8 ||| c.rsBit) &&& m := by rw [BitVec.and_comm m, BitVec.and_assoc]
    _ = 0#8 := by rw [beq_iff_eq.1 hn, BitVec.zero_and]

/-- R82: what is put together from a data nibble and a flag is a nibble byte. -/
theorem nibbleByteOk_nibbleOf (hc : FlagsApart c) (d : Nibble) (r : Bool) : nibbleByteOk c (nibbleOf c d r) = true := by
  have hdata : ∀ m ∈ Config.flagMasks, ∀ d, bootNibble d &&& ~~~(0xF0#8 ||| m) = 0#8 := by decide
  have hrs : c.rsBit &&& ~~~(0xF0#8 ||| c.rsBit) = 0#8 := by
    rw [BitVec.not_or, BitVec.and_comm (~~~_), ← BitVec.and_assoc, BitVec.and_not_self]
    exact BitVec.zero_and
  rw [beq_iff_eq, nibbleOf, BitVec.and_or_distrib_right, hdata _ hc.rs_mem, rsm_and hrs, BitVec.or_zero]

/-- The nibble byte of a bootstrap value is that of the value with the flag 0. -/
theorem bootNibble_eq_nibbleOf (v : Nibble) : bootNibble v = nibbleOf c v false := BitVec.or_zero.symm

theorem FlagsApart.rs_bl (hc : FlagsApart c) : c.rsBit &&& c.blBit = 0#8 := by rw [BitVec.and_comm, hc.bl_rs]

/-- R7: the register-select mask and the `RW` mask have no bit in common. -/
theorem rsBit_and_rwBit (h : c.wf) : c.rsBit &&& c.rwBit = 0#8 := by
  obtain ⟨-, -, hrs, hrw, hd⟩ := h
  simp only [List.nodup_cons, List.mem_cons, not_or] at hd
  obtain ⟨-, -, ⟨hne, -⟩, -⟩ := hd
  exact flagMask_and_of_ne _ hrs _ hrw hne

/-- Settles O19: each byte that is built is the nibble byte of its nibble and flag, which R82 gives its data bits and its
register-select bit and, with R7, no other. -/
theorem builtNibbleBytesAreNibbleBytes : Obligations.BuiltNibbleBytesAreNibbleBytes := by
  intro c b v rs hwf n d r hmem
  have hc := flagsApart_of_wf hwf
  have hbuilt : n = nibbleOf c d r := by
    simp only [List.mem_cons, Prod.mk.injEq, List.not_mem_nil, or_false] at hmem
    obtain ⟨rfl, rfl, rfl⟩ | ⟨rfl, rfl, rfl⟩ | ⟨rfl, rfl, rfl⟩ | ⟨rfl, rfl, rfl⟩ := hmem
    · exact hiNibble_eq_nibbleOf b _
    · exact loNibble_eq_nibbleOf b _
    · exact bootNibble_eq_nibbleOf _
    · rfl
  subst hbuilt
  have hok := nibbleByteOk_nibbleOf hc d r
  have hrs_rw := rsBit_and_rwBit hwf
  obtain ⟨-, -, -, hrw_mem, -⟩ := hwf
  exact ⟨beq_iff_eq.1 hok, nibbleOf_and_enBit hc d r, nibbleByte_and_flagMask hok hc.bl_mem hc.rs_bl,
    nibbleByte_and_flagMask hok hrw_mem hrs_rw, and_not_of_and_eq_zero (nibbleOf_and_enBit hc d r),
    nibbleOf_data hc d r, nibbleOf_and_rsBit hc d r⟩

/-- The two nibbles of a byte, joined, are the byte. -/
theorem nibbles_append (b : Byte) : b.extractLsb' 4 4 ++ b.extractLsb' 0 4 = b :=
  (BitVec.extractLsb'_append_extractLsb'_eq_extractLsb' rfl).trans BitVec.extractLsb'_eq_self

/-- Settles O20: the two formulas are the definitions, and the nibble bytes carry the nibbles of the byte. -/
theorem nibbleSplitKeepsEveryBit : Obligations.NibbleSplitKeepsEveryBit := by
  intro c b rs hwf
  have hc := flagsApart_of_wf hwf
  have hhi : (hiNibble c b rs).extractLsb' 4 4 = b.extractLsb' 4 4 := by rw [hiNibble_eq_nibbleOf, nibbleOf_data hc]
  have hlo : (loNibble c b rs).extractLsb' 4 4 = b.extractLsb' 0 4 := by rw [loNibble_eq_nibbleOf, nibbleOf_data hc]
  exact ⟨rfl, rfl, hhi, hlo, by rw [hhi, hlo, nibbles_append]⟩

/-! ### Reading nibble bytes back (R103) -/

/-- R103: the low wire byte of a strobe without the backlight mask is the nibble byte. -/
theorem wireLow_and_not_blm (hc : FlagsApart c) {n : Byte} (hn : nibbleByteOk c n = true) (bl : Bool) :
    wireLow c bl n &&& ~~~blm c bl = n := by
  have hen : n &&& c.enBit = 0#8 := nibbleByte_and_flagMask hn hc.en_mem hc.rs_en
  have hblBit : n &&& c.blBit = 0#8 := nibbleByte_and_flagMask hn hc.bl_mem hc.rs_bl
  have hblm : n &&& blm c bl = 0#8 := by rw [BitVec.and_comm, blm_and (by rw [BitVec.and_comm, hblBit])]
  rw [wireLow, and_not_of_and_eq_zero hen, BitVec.and_or_distrib_right, BitVec.and_not_self,
    and_not_of_and_eq_zero hblm]
  exact BitVec.or_zero

/-- The two bus writes of a strobe, then those of what follows it. -/
theorem writeBytes_strobe_append (bl : Bool) (n : Byte) (e : List Prim) :
    writeBytes (Expand.strobe c bl n ++ e) = wireHigh c bl n :: wireLow c bl n :: writeBytes e := rfl

/-- Settles O23, by induction on the nibble bytes. -/
theorem nibbleBytesAreReadBack : Obligations.NibbleBytesAreReadBack := by
  intro c ns hwf hok
  have hc := flagsApart_of_wf hwf
  induction ns with
  | nil => rfl
  | cons n ns ih =>
    obtain ⟨hn, hns⟩ := List.forall_mem_cons.1 hok
    rw [List.flatMap_cons, writeBytes_strobe_append, nibbleBytes, wireLow_and_not_blm hc hn, ih hns]

/-! ### The bytes of the emitted commands (R83 to R89) -/

theorem entryByte_eq_encode (id sh : Bool) : entryByte id sh = BitVec.ofNat 8 (encode (.cmdEntry id sh)) := by
  cases id <;> cases sh <;> rfl

theorem dispctlByte_eq_encode (d k b : Bool) : dispctlByte d k b = BitVec.ofNat 8 (encode (.cmdDispctl d k b)) := by
  cases d <;> cases k <;> cases b <;> rfl

theorem funcsetByte_eq_encode (dl n f : Bool) : funcsetByte dl n f = BitVec.ofNat 8 (encode (.cmdFuncset dl n f)) := by
  cases dl <;> cases n <;> cases f <;> rfl

/-- The sum of R89 is that of the pattern, which stays below 256. -/
theorem setddramByte_eq_encode (a : BitVec 7) :
    setddramByte Config.default a = BitVec.ofNat 8 (encode (.cmdSetddram a)) := by
  apply BitVec.eq_of_toNat_eq
  simp [setddramByte, encode, Config.default]

/-- A command sent is the byte of its word sent, when the two are the same byte. -/
theorem sendWhole_encode {b : Byte} {i : Instr} (h : b = BitVec.ofNat 8 (encode i)) (s : State) :
    sendWhole b false s = .next { s with todo := .op (.sendbyte (BitVec.ofNat 8 (encode i)) false) :: s.todo } := by
  rw [← h]
  rfl

/-- Settles O25: the byte of each command is that of its word. -/
theorem emittedBytesMatchTheirPatterns : Obligations.EmittedBytesMatchTheirPatterns := by
  refine ⟨fun i hi s hs => ?_, rfl, rfl, rfl⟩
  cases i with
  | cmdClear => exact sendWhole_encode (by rw [hs]; rfl) s
  | cmdHome => exact sendWhole_encode (by rw [hs]; rfl) s
  | cmdEntry id sh => exact sendWhole_encode (entryByte_eq_encode id sh) s
  | cmdDispctl d k b => exact sendWhole_encode (dispctlByte_eq_encode d k b) s
  | cmdFuncset dl n f => exact sendWhole_encode (funcsetByte_eq_encode dl n f) s
  | cmdSetddram a => exact sendWhole_encode (by rw [hs]; exact setddramByte_eq_encode a) s
  | _ => cases hi

end Sys2Proof.Machine
end

section
/-! PROOFS of the bus and timing family: a request runs as `Run(E)` says (O57), the frame of the bus operations (O50), the
answered bus write (O10) and the delay (O13). -/

namespace Sys2Proof.Machine

variable {s t : State}

/-! ### The primitives -/

/-- Settles O10: the listed answer `ok` is used up and the write is done. -/
theorem buswrAnsweredOk : Obligations.BuswrAnsweredOk := fun b _ _ h => busWrite_ok b h

/-- Delays add (R124): the least time of a trace is that of its parts. -/
theorem traceMicros_append (c : Config) (es fs : List Event) :
    traceMicros c (es ++ fs) = traceMicros c es + traceMicros c fs := by
  induction es with
  | nil => exact (Nat.zero_add _).symm
  | cons e es ih =>
    cases e with
    | wr b r => exact ih
    | wait k => rw [List.cons_append, traceMicros, traceMicros, ih, Nat.add_assoc]

/-- Settles O13: a delay is its own step, and its event adds `T_k` to the time. -/
theorem waitEmitsItsDelay : Obligations.WaitEmitsItsDelay := fun k s => ⟨rfl, traceMicros_append s.cfg s.trace [.wait k]⟩

/-- What a bus operation leaves as it was: the working registers and `ISTEP`; and, where it goes on, everything that controls the
request, where it aborts, the place in it. -/
def BusFrame (s t : State) : Prop :=
  t.cmd = s.cmd ∧ t.rs = s.rs ∧ t.nib = s.nib ∧ samePosition s t ∧ t.istep = s.istep ∧
    ((sameControl s t ∧ t.todo = s.todo ∧ t.upc = s.upc + 1) ∨
      (t.busy = false ∧ t.todo = [] ∧ t.upc = s.upc ∧ t.nwr = s.nwr ∧ (t.fsm = s.fsm ∨ s.running = some .init)))

/-- A failed bus write changes `FSM` in INIT only (R203). -/
theorem failFsm_eq_or_init (running : Option Job) (f : Fsm) : failFsm running f = f ∨ running = some .init := by
  by_cases hr : running = some .init
  · exact .inr hr
  · exact .inl (if_neg hr)

/-- A bus write goes on or aborts. -/
theorem busWrite_busFrame {b : Byte} (h : busWrite b s = .next t) : BusFrame s t := by
  obtain ⟨rs, d, rfl | rfl⟩ := busWrite_cases h
  · exact ⟨rfl, rfl, rfl, ⟨rfl, rfl, rfl, rfl, rfl⟩, rfl, .inl ⟨⟨rfl, rfl, rfl, rfl, rfl, rfl⟩, rfl, rfl⟩⟩
  · exact ⟨rfl, rfl, rfl, ⟨rfl, rfl, rfl, rfl, rfl⟩, rfl, .inr ⟨rfl, rfl, rfl, rfl, failFsm_eq_or_init ..⟩⟩

/-- A delay goes on. -/
theorem delay_busFrame (k : DelayClass) (s : State) : BusFrame s (delay k s) :=
  ⟨rfl, rfl, rfl, ⟨rfl, rfl, rfl, rfl, rfl⟩, rfl, .inl ⟨⟨rfl, rfl, rfl, rfl, rfl, rfl⟩, rfl, rfl⟩⟩

/-- Settles O50: BUSWR, EH and EL are each one bus write, WAIT is a delay. -/
theorem busOperationsFrame : Obligations.BusOperationsFrame := by
  rintro i s t h (⟨b, rfl⟩ | ⟨k, rfl⟩ | ⟨d, r, rfl | rfl⟩)
  · exact busWrite_busFrame h
  · obtain rfl := Host.Outcome.next.inj h
    exact delay_busFrame k s
  · exact busWrite_busFrame h
  · exact busWrite_busFrame h

/-! ### A bound on the steps a request still takes -/

/-- A bound on the steps of an operation and of all it is replaced by. A request is never left to do. -/
def opSteps : Instr → Nat
  | .init | .clear | .wrstr _ _ => 0
  | .buswr _ | .wait _ | .eh _ _ | .el _ _ => 1
  | .strobe _ => 7
  | .sendbyte _ _ => 15
  | .setaddr _ _ | .wrdata _ | .bootnib _ | .cmdClear | .cmdHome | .cmdEntry _ _ | .cmdDispctl _ _ _ | .cmdFuncset _ _ _
  | .cmdSetddram _ | .data _ => 16

/-- The same for a task, `left` bytes of the text being left: a round of WRSTR's loop is its test, a WRDATA and its end. -/
def taskSteps (left : Nat) : Task → Nat
  | .op i => opSteps i
  | .initStep _ => 1
  | .textLoop => 18 * left + 1
  | .textNext => 18 * (left - 1) + 2

/-- The same for all that is left to do. -/
def stepsLeft (s : State) : Nat := (s.todo.map (taskSteps (s.len - s.idx))).sum

/-- The first task counts as its own steps. -/
theorem stepsLeft_cons {x : Task} {rest : List Task} (ht : s.todo = x :: rest) :
    stepsLeft s = taskSteps (s.len - s.idx) x + stepsLeft { s with todo := rest } := by
  simp [stepsLeft, ht]

/-- Every operation that can be left to do takes a step. -/
theorem opSteps_pos {i : Instr} (hi : i.isRequest = false) : 0 < opSteps i := by
  cases i with
  | init => cases hi
  | clear => cases hi
  | wrstr row col => cases hi
  | _ => exact Nat.succ_pos _

/-- Tasks put before the others count with them. -/
theorem stepsLeft_of_todo_append {front : List Task} (ht : t.todo = front ++ s.todo) (hlen : t.len = s.len)
    (hidx : t.idx = s.idx) : stepsLeft t = (front.map (taskSteps (s.len - s.idx))).sum + stepsLeft s := by
  simp [stepsLeft, ht, hlen, hidx]

/-- What replaces BOOTNIB takes fewer steps, in each form. -/
theorem bootTasks_steps (c : Config) (v : Nibble) (left : Nat) : ((bootTasks c v).map (taskSteps left)).sum < 16 := by
  cases hf : c.bootForm <;> simp [bootTasks, hf, taskSteps, opSteps]

/-- Tasks that take fewer steps than the operation they replace. -/
theorem stepsLeft_push_lt {ts : List Task} {n : Nat} (h : (ts.map (taskSteps (s.len - s.idx))).sum < n) :
    stepsLeft (push ts s) < n + stepsLeft s := by
  rw [stepsLeft_of_todo_append (push_todo s ts) rfl rfl]
  exact Nat.add_lt_add_right h _

/-- A bus write puts no task before the others. -/
theorem busWrite_stepsLeft_le {b : Byte} (h : busWrite b s = .next t) : stepsLeft t ≤ stepsLeft s := by
  obtain ⟨rs, d, rfl | rfl⟩ := busWrite_cases h
  · exact le_refl _
  · exact Nat.zero_le _

/-- An operation that is no request is replaced by operations that take fewer steps. -/
theorem exec_stepsLeft_lt {i : Instr} (hi : i.isRequest = false) (h : exec i s = .next t) :
    stepsLeft t < opSteps i + stepsLeft s := by
  cases i with
  | init => cases hi
  | clear => cases hi
  | wrstr row col => cases hi
  | buswr b => exact lt_add_of_pos_of_le Nat.one_pos (busWrite_stepsLeft_le h)
  | eh d r => exact lt_add_of_pos_of_le Nat.one_pos (busWrite_stepsLeft_le h)
  | el d r => exact lt_add_of_pos_of_le Nat.one_pos (busWrite_stepsLeft_le h)
  | wait k =>
    obtain rfl := Host.Outcome.next.inj h
    exact Nat.lt_add_of_pos_left Nat.one_pos
  | setaddr row col =>
    obtain ⟨-, e⟩ | ⟨a, -, e⟩ := execSetaddr_cases row col s <;> obtain rfl := Host.Outcome.next.inj (e.symm.trans h)
    · exact Nat.lt_add_of_pos_left (opSteps_pos hi)
    · exact stepsLeft_push_lt (s := { s with addr := a }) (by simp [taskSteps, opSteps])
  | bootnib v =>
    obtain rfl := Host.Outcome.next.inj h
    exact stepsLeft_push_lt (bootTasks_steps ..)
  | strobe n =>
    obtain rfl := Host.Outcome.next.inj h
    exact stepsLeft_push_lt (s := { s with nib := n }) (by simp [strobeTasks, taskSteps, opSteps])
  | sendbyte b rs =>
    obtain rfl := Host.Outcome.next.inj h
    exact stepsLeft_push_lt (s := { s with cmd := b, rs := rs }) (by simp [sendTasks, taskSteps, opSteps])
  | _ =>
    obtain rfl := Host.Outcome.next.inj h
    exact stepsLeft_push_lt (by simp [taskSteps, opSteps])

/-- An inner operation is no request. -/
theorem isRequest_of_inner {c : Config} {i : Instr} (hi : (Task.op i).isInner c = true) : i.isRequest = false := by
  cases i with
  | init => cases hi
  | clear => cases hi
  | wrstr row col => cases hi
  | _ => rfl

/-! ### The step of a running request -/

/-- What a step between two primitives leaves as it was. -/
structure Silent (s t : State) : Prop where
  bus : sameBus s t
  running : t.running = s.running
  results : t.results = s.results
  resetIn : t.resetIn = s.resetIn
  remaining : remaining t = remaining s

/-- An operation replaced by its expansion performs no primitive. -/
theorem Quiet.silent {i : Instr} {front rest : List Task} (h : Quiet { s with todo := rest } t) (ht : s.todo = .op i :: rest)
    (hfront : t.todo = front ++ rest) (hx : Expand.instr s.cfg s.bl [] i = front.flatMap (taskPrims s)) : Silent s t := by
  have hrem := h.remaining_eq ht hfront hx
  obtain ⟨⟨-, -, -, -, hreset⟩, -, ⟨-, -, -, hrun, -, hres⟩, hbus, -⟩ := h
  exact ⟨hbus, hrun, hres, hreset, hrem⟩

/-- The step of a sequencer with something left to do: one that performs no primitive, the next primitive if it is a delay, or the
bus write that is the next primitive. Each brings the end nearer. -/
def NextPrimitive (s : State) : Prop :=
  (∃ t, step s = .next t ∧ Silent s t ∧ stepsLeft t < stepsLeft s) ∨
  ∃ rest, stepsLeft { s with todo := rest } < stepsLeft s ∧
    ((∃ k, step s = .next (delay k { s with todo := rest }) ∧
        remaining s = .wait k :: remaining { s with todo := rest }) ∨
      ∃ b, step s = busWrite b { s with todo := rest } ∧ remaining s = .buswr b :: remaining { s with todo := rest })

/-- The step at an operation. -/
theorem nextPrimitive_of_op {i : Instr} {rest : List Task} (hs : SafeState s) (hr : s.resetIn = [])
    (ht : s.todo = .op i :: rest) : NextPrimitive s := by
  obtain ⟨hi, -, -⟩ := phaseShape_head hs.shape ht
  have hreq := isRequest_of_inner hi
  have hstep := step_of_op hr ht
  have hrem : remaining s = Expand.instr s.cfg s.bl [] i ++ _ := remaining_cons ht
  have hleft : stepsLeft s = opSteps i + stepsLeft { s with todo := rest } := stepsLeft_cons ht
  have hlt : stepsLeft { s with todo := rest } < stepsLeft s := hleft ▸ Nat.lt_add_of_pos_left (opSteps_pos hreq)
  obtain ⟨b, hx, e⟩ | ⟨k, hx, e⟩ | ⟨front, t, e, hfront, -, hx, hq⟩ := inner_exec i { s with todo := rest } hi
  · rw [show Expand.instr s.cfg s.bl [] i = [.buswr b] from hx] at hrem
    exact .inr ⟨rest, hlt, .inr ⟨b, hstep.trans e, hrem⟩⟩
  · rw [show Expand.instr s.cfg s.bl [] i = [.wait k] from hx] at hrem
    exact .inr ⟨rest, hlt, .inl ⟨k, hstep.trans e, hrem⟩⟩
  · exact .inl ⟨t, hstep.trans e, hq.silent ht hfront hx, hleft ▸ exec_stepsLeft_lt hreq e⟩

/-- A running WRSTR inside its text has a byte there (R55). -/
theorem wrstrShape_read (h : wrstrShape s) (hlt : s.idx < s.len) : ∃ b, Memory.read s.txt s.idx = some b := by
  obtain ⟨-, -, ⟨text, htxt, hlen⟩, -⟩ := h
  exact ⟨text[s.idx]'(hlen ▸ hlt), by rw [htxt, textSpaceReadsAsTheText, List.getElem?_eq_getElem]⟩

/-- The step at the loop of WRSTR. -/
theorem nextPrimitive_of_textLoop {rest : List Task} (hs : SafeState s) (hr : s.resetIn = [])
    (ht : s.todo = .textLoop :: rest) : NextPrimitive s := by
  obtain ⟨-, hshape, -⟩ := phaseShape_head hs.shape ht
  have hstep : step s = textLoopStep rest s := step_of_task hr ht
  have hleft := stepsLeft_cons ht
  by_cases hlt : s.idx < s.len
  · obtain ⟨b, hb⟩ := wrstrShape_read hshape hlt
    refine .inl ⟨_, hstep.trans (textLoopStep_enter hlt hb),
      ⟨⟨rfl, rfl, rfl, rfl, rfl, rfl⟩, rfl, rfl, rfl, remaining_textLoop_enter ht hlt hb⟩, ?_⟩
    rw [hleft]
    simp only [stepsLeft, List.map_cons, List.sum_cons, taskSteps, opSteps]
    omega
  · refine .inl ⟨_, hstep.trans (textLoopStep_leave hlt),
      ⟨⟨rfl, rfl, rfl, rfl, rfl, rfl⟩, rfl, rfl, rfl, remaining_textLoop_leave ht hlt⟩, ?_⟩
    rw [hleft]
    exact Nat.lt_add_of_pos_left (Nat.succ_pos _)

/-- The step at the end of a round of WRSTR's loop. -/
theorem nextPrimitive_of_textNext {rest : List Task} (hs : SafeState s) (hr : s.resetIn = [])
    (ht : s.todo = .textNext :: rest) : NextPrimitive s := by
  obtain ⟨-, -, rfl, hlt⟩ := phaseShape_head hs.shape ht
  refine .inl ⟨_, step_of_task hr ht, ⟨⟨rfl, rfl, rfl, rfl, rfl, rfl⟩, rfl, rfl, rfl, remaining_textNext ht⟩, ?_⟩
  rw [stepsLeft_cons ht]
  simp only [stepsLeft, List.map_cons, List.map_nil, List.sum_cons, taskSteps]
  omega

/-- The step of a sequencer with something left to do. -/
theorem SafeState.nextPrimitive {x : Task} {rest : List Task} (hs : SafeState s) (hr : s.resetIn = [])
    (ht : s.todo = x :: rest) : NextPrimitive s := by
  cases x with
  | op i => exact nextPrimitive_of_op hs hr ht
  | initStep n =>
    have hlt : stepsLeft { s with todo := rest } < stepsLeft s := stepsLeft_cons ht ▸ Nat.lt_add_of_pos_left Nat.one_pos
    exact .inl ⟨_, step_of_task hr ht, ⟨⟨rfl, rfl, rfl, rfl, rfl, rfl⟩, rfl, rfl, rfl, remaining_initStep ht⟩, hlt⟩
  | textLoop => exact nextPrimitive_of_textLoop hs hr ht
  | textNext => exact nextPrimitive_of_textNext hs hr ht

/-! ### The run of a request against `Run(E)` -/

/-- A request runs, no reset is applied, and the transport's next answers are listed, one at least for each bus write left. -/
structure Running (s : State) (job : Job) (answers : List Reply) (rest : List (Option Reply)) : Prop where
  safe : SafeState s
  running : s.running = some job
  noReset : s.resetIn = []
  replies : s.replies = answers.map some ++ rest
  enough : (writeBytes (remaining s)).length ≤ answers.length

/-- The result and `FSM` with which a request ends that had come to `upc` (R127, R203, R169, R191). -/
def endsAs (t : State) (job : Job) (upc : Nat) : RunEnd → Prop
  | .done => t.result.code = .ok ∧ t.fsm = .ready ∧ t.upc = upc
  | .failed n => t.result = ⟨if job = .init then .initError else .ioError, n⟩ ∧
      t.fsm = (if job = .init then .initFailed else .ready)

/-- From `s` on the block runs `Run(e)` on these answers, to its end (R127). -/
def RunsTo (s : State) (job : Job) (e : List Prim) (answers : List Reply) : Prop :=
  ∃ k t, steps k s = .next t ∧ t.busy = false ∧ t.trace = s.trace ++ runEvents e answers ∧
    t.results = s.results ++ [t.result] ∧ endsAs t job (s.upc + e.length) (runEnd e answers s.nwr)

/-- A step that emits `es`, and then the run of what `Run` leaves after `es`. -/
theorem RunsTo.of_step {job : Job} {e e' : List Prim} {answers answers' : List Reply} (es : List Event)
    (hstep : step s = .next t) (htrace : t.trace = s.trace ++ es) (hresults : t.results = s.results)
    (hupc : t.upc + e'.length = s.upc + e.length) (hevents : runEvents e answers = es ++ runEvents e' answers')
    (hend : runEnd e answers s.nwr = runEnd e' answers' t.nwr) (h : RunsTo t job e' answers') : RunsTo s job e answers := by
  obtain ⟨k, u, hk, hbusy, hu, hres, hlast⟩ := h
  refine ⟨k + 1, u, steps_head hstep hk, hbusy, ?_, hresults ▸ hres, hend ▸ hupc ▸ hlast⟩
  rw [hu, htrace, hevents, List.append_assoc]

variable {job : Job} {answers : List Reply} {rest : List (Option Reply)}

/-- A running request keeps the block busy. -/
theorem Running.busy (h : Running s job answers rest) : s.busy = true := by
  rw [h.safe.busyRuns, h.running, Option.isSome_some]

/-- A running INIT that has nothing left to do has made its last assignment. -/
theorem initShape_done (h : initShape s) (ht : s.todo = []) : s.fsm = .ready := by
  obtain ⟨h9, -⟩ | ⟨hlt, front, -, e⟩ := initShape_tasks h
  · obtain ⟨hfsm, -⟩ := h
    rw [hfsm, h9]
    rfl
  · obtain ⟨n, hn⟩ := initProgram_drop_odd s.cfg s.istep hlt
    rw [ht, hn] at e
    simp at e

/-- CLEAR and WRSTR run on the ready display. -/
theorem Running.ready_of_ne_init (h : Running s job answers rest) (hjob : job ≠ .init) : s.fsm = .ready := by
  cases job with
  | init => exact absurd rfl hjob
  | clear =>
    obtain ⟨hfsm, -⟩ := (phaseShape_of_clear h.running).1 h.safe.shape
    exact hfsm
  | wrstr =>
    obtain ⟨hfsm, -⟩ := (phaseShape_of_wrstr h.running).1 h.safe.shape
    exact hfsm

/-- A request with nothing left to do has the display ready. -/
theorem Running.ready_of_done (h : Running s job answers rest) (ht : s.todo = []) : s.fsm = .ready := by
  cases job with
  | init => exact initShape_done ((phaseShape_of_init h.running).1 h.safe.shape) ht
  | clear => exact h.ready_of_ne_init (by decide)
  | wrstr => exact h.ready_of_ne_init (by decide)

/-- With nothing left to do the request ends `Done`. -/
theorem Running.ends (h : Running s job answers rest) (ht : s.todo = []) : RunsTo s job (remaining s) answers := by
  have hrem : remaining s = [] := by rw [remaining, ht, List.flatMap_nil]
  rw [hrem]
  exact ⟨1, complete s, steps_head (step_of_done h.noReset ht h.busy) (steps_zero _), rfl, (List.append_nil _).symm, rfl, rfl,
    h.ready_of_done ht, rfl⟩

/-- A step that performs no primitive leaves the request running on the same answers. -/
theorem Running.of_silent (h : Running s job answers rest) (hstep : step s = .next t) (hq : Silent s t) :
    Running t job answers rest := by
  obtain ⟨⟨-, -, hreplies, -⟩, hrun, -, hreset, hrem⟩ := hq
  exact ⟨stepKeepsTheInvariant s t h.safe hstep, hrun.trans h.running, hreset.trans h.noReset, hreplies.trans h.replies,
    hrem ▸ h.enough⟩

/-- A step that performs no primitive is no part of `Run`. -/
theorem RunsTo.of_silent (hstep : step s = .next t) (hq : Silent s t) (h : RunsTo t job (remaining t) answers) :
    RunsTo s job (remaining s) answers := by
  obtain ⟨⟨-, htrace, -, hupc, hnwr, -⟩, -, hresults, -, hrem⟩ := hq
  rw [hrem] at h
  exact h.of_step [] hstep (htrace.trans (List.append_nil _).symm) hresults (by rw [hupc]) rfl (by rw [hnwr])

/-- A delay is no bus write. -/
theorem writeBytes_wait (k : DelayClass) (e : List Prim) : writeBytes (.wait k :: e) = writeBytes e := rfl

/-- A bus write adds its byte. -/
theorem writeBytes_buswr (b : Byte) (e : List Prim) : writeBytes (.buswr b :: e) = b :: writeBytes e := rfl

variable {tasks : List Task}

/-- A delay leaves the request running on the same answers. -/
theorem Running.of_wait {k : DelayClass} (h : Running s job answers rest)
    (hstep : step s = .next (delay k { s with todo := tasks }))
    (hrem : remaining s = .wait k :: remaining { s with todo := tasks }) :
    Running (delay k { s with todo := tasks }) job answers rest :=
  ⟨stepKeepsTheInvariant s _ h.safe hstep, h.running, h.noReset, h.replies,
    writeBytes_wait k (remaining { s with todo := tasks }) ▸ hrem ▸ h.enough⟩

/-- A bus write answered `ok` leaves the request running on the answers after it. -/
theorem Running.of_writeOk {b : Byte} (h : Running s job (.ok :: answers) rest)
    (hstep : step s = .next (writeOk b { s with todo := tasks, replies := answers.map some ++ rest }))
    (hrem : remaining s = .buswr b :: remaining { s with todo := tasks }) :
    Running (writeOk b { s with todo := tasks, replies := answers.map some ++ rest }) job answers rest := by
  refine ⟨stepKeepsTheInvariant s _ h.safe hstep, h.running, h.noReset, rfl, ?_⟩
  have henough := h.enough
  rw [hrem, writeBytes_buswr, List.length_cons, List.length_cons] at henough
  exact Nat.le_of_succ_le_succ henough

/-- At a bus write answered `fail` the request ends `Failed`. -/
theorem Running.ends_of_fail {b : Byte} {e : List Prim} (h : Running s job (.fail :: answers) rest)
    (hstep : step s = .next (writeFail b { s with todo := tasks, replies := answers.map some ++ rest })) :
    RunsTo s job (.buswr b :: e) (.fail :: answers) := by
  refine ⟨1, _, steps_head hstep (steps_zero _), rfl, rfl, rfl, ?_, ?_⟩
  · simp [failCode, h.running]
  · by_cases hjob : job = .init
    · simp [failFsm, h.running, hjob]
    · simp [failFsm, h.running, hjob, h.ready_of_ne_init hjob]

/-- A running request runs `Run` of what is left of its expansion, to its end: by induction on the steps left, one step of the
sequencer at a time. -/
theorem Running.runsTo (h : Running s job answers rest) : RunsTo s job (remaining s) answers := by
  induction hn : stepsLeft s using Nat.strong_induction_on generalizing s answers with
  | _ n ih =>
    subst hn
    cases ht : s.todo with
    | nil => exact h.ends ht
    | cons x xs =>
      obtain ⟨t, hstep, hq, hlt⟩ | ⟨tasks, hlt, ⟨k, hstep, hrem⟩ | ⟨b, hw, hrem⟩⟩ := h.safe.nextPrimitive h.noReset ht
      · exact .of_silent hstep hq (ih _ hlt (h.of_silent hstep hq) rfl)
      · rw [hrem]
        exact .of_step [.wait k] hstep rfl rfl (by simp; omega) rfl rfl (ih _ hlt (h.of_wait hstep hrem) rfl)
      · cases answers with
        | nil => exact absurd h.enough (by simp [hrem, writeBytes_buswr])
        | cons r answers =>
          cases r with
          | ok =>
            have hstep := hw.trans (busWrite_ok b h.replies)
            rw [hrem]
            exact .of_step [.wr b .ok] hstep rfl rfl (by simp; omega) rfl rfl (ih _ hlt (h.of_writeOk hstep hrem) rfl)
          | fail =>
            rw [hrem]
            exact h.ends_of_fail (hw.trans (busWrite_fail b h.replies))

/-- Settles O57: at the start of a request all of its expansion is left to run. -/
theorem requestEndsAsItsExpansionRuns : Obligations.RequestEndsAsItsExpansionRuns := by
  intro s job answers rest hs hrun hupc hnwr hreset hreplies henough
  have hbusy : s.busy = true := by rw [hs.busyRuns, hrun, Option.isSome_some]
  have hrem : remaining s = expansion s := by rw [hs.position hbusy, hupc, List.drop_zero]
  obtain ⟨k, t, hk, hb, htrace, hres, hend⟩ := Running.runsTo ⟨hs, hrun, hreset, hreplies, hrem ▸ henough⟩
  rw [hrem] at htrace
  rw [hrem, hnwr, hupc, Nat.zero_add] at hend
  refine ⟨k, t, hk, hb, htrace, hres, ?_⟩
  cases he : runEnd (expansion s) answers 0 <;> exact he ▸ hend

end Sys2Proof.Machine
end

section
/-! PROOFS of the encoder family, the wire bytes: every wire byte is legal (O60), the strobe invariant (O18), the
register-select bit (O21), and what SENDBYTE delivers (O22). -/

namespace Sys2Proof.Machine

variable {s t : State} {c : Config}

/-! ### The flags of a wire byte (R94) -/

/-- A mask that is put into a byte can be read from it. -/
theorem or_and_mask (x m : Byte) : (x ||| m) &&& m = m := by
  ext i
  simp only [BitVec.getElem_and, BitVec.getElem_or]
  cases m[i] <;> simp

/-- R7: the enable mask and the `RW` mask have no bit in common, nor have the backlight mask and the `RW` mask. -/
theorem enBit_blBit_and_rwBit (h : c.wf) : c.enBit &&& c.rwBit = 0#8 ∧ c.blBit &&& c.rwBit = 0#8 := by
  obtain ⟨hen, hbl, -, hrw, hd⟩ := h
  simp only [List.nodup_cons, List.mem_cons, not_or] at hd
  obtain ⟨⟨-, -, hen_rw, -⟩, ⟨-, hbl_rw, -⟩, -⟩ := hd
  exact ⟨flagMask_and_of_ne _ hen _ hrw hen_rw, flagMask_and_of_ne _ hbl _ hrw hbl_rw⟩

/-- The `RW` bit of a nibble byte is 0 (R82). -/
theorem nibbleByte_and_rwBit (h : c.wf) {n : Byte} (hn : nibbleByteOk c n = true) : n &&& c.rwBit = 0#8 := by
  have hrs := rsBit_and_rwBit h
  obtain ⟨-, -, -, hrw, -⟩ := h
  exact nibbleByte_and_flagMask hn hrw hrs

/-- A byte without the `RW` bit is legal once the backlight mask is put into it. -/
theorem wireLegal_or_blBit (h : c.wf) {x : Byte} (hx : x &&& c.rwBit = 0#8) : wireLegal c (x ||| c.blBit) := by
  obtain ⟨-, hbl⟩ := enBit_blBit_and_rwBit h
  exact ⟨or_and_mask x _, by rw [BitVec.and_or_distrib_right, hx, hbl, BitVec.or_zero]⟩

theorem wireLegal_wireHigh (h : c.wf) {n : Byte} (hn : nibbleByteOk c n = true) : wireLegal c (wireHigh c true n) := by
  obtain ⟨hen, -⟩ := enBit_blBit_and_rwBit h
  refine wireLegal_or_blBit h ?_
  rw [BitVec.and_or_distrib_right, nibbleByte_and_rwBit h hn, hen, BitVec.or_zero]

theorem wireLegal_wireLow (h : c.wf) {n : Byte} (hn : nibbleByteOk c n = true) : wireLegal c (wireLow c true n) := by
  refine wireLegal_or_blBit h ?_
  rw [BitVec.and_assoc, BitVec.and_comm (~~~_), ← BitVec.and_assoc, nibbleByte_and_rwBit h hn, BitVec.zero_and]

/-- The low wire byte is the high one with the enable bit cleared. -/
theorem wireLow_eq_wireHigh_and_not (hc : FlagsApart c) (bl : Bool) (n : Byte) :
    wireLow c bl n = wireHigh c bl n &&& ~~~c.enBit := by
  have hbl : blm c bl &&& ~~~c.enBit = blm c bl := and_not_of_and_eq_zero (blm_and hc.bl_en bl)
  have hen : c.enBit &&& ~~~c.enBit = 0#8 := BitVec.and_not_self _
  rw [wireLow, wireHigh, BitVec.and_or_distrib_right, BitVec.and_or_distrib_right, hen, hbl, BitVec.or_zero]

theorem wireHigh_and_rsBit (hc : FlagsApart c) (bl : Bool) (d : Nibble) (r : Bool) :
    wireHigh c bl (nibbleOf c d r) &&& c.rsBit = rsm c r := by
  have hen : c.enBit &&& c.rsBit = 0#8 := by rw [BitVec.and_comm, hc.rs_en]
  rw [wireHigh, BitVec.and_or_distrib_right, BitVec.and_or_distrib_right, nibbleOf_and_rsBit hc, hen, blm_and hc.bl_rs,
    BitVec.or_zero, BitVec.or_zero]

/-! ### Legal expansions -/

/-- Every bus write of a list of primitives is a legal wire byte (R144). -/
def LegalPrims (c : Config) (e : List Prim) : Prop := ∀ b, .buswr b ∈ e → wireLegal c b

theorem LegalPrims.append {e f : List Prim} (he : LegalPrims c e) (hf : LegalPrims c f) : LegalPrims c (e ++ f) :=
  fun b hb => (List.mem_append.1 hb).elim (he b) (hf b)

theorem LegalPrims.flatMap {α : Type} {l : List α} {f : α → List Prim} (h : ∀ a ∈ l, LegalPrims c (f a)) :
    LegalPrims c (l.flatMap f) := fun b hb =>
  have ⟨a, ha, hb⟩ := List.mem_flatMap.1 hb
  h a ha b hb

theorem LegalPrims.nil (c : Config) : LegalPrims c [] := fun _ hb => nomatch hb

theorem LegalPrims.wait (c : Config) (k : DelayClass) : LegalPrims c [.wait k] := fun b hb => by simp at hb

theorem legalPrims_strobe (h : c.wf) {n : Byte} (hn : nibbleByteOk c n = true) :
    LegalPrims c (Expand.strobe c true n) := by
  intro b hb
  have hb : b = wireHigh c true n ∨ b = wireLow c true n := by simpa [Expand.strobe] using hb
  obtain rfl | rfl := hb
  · exact wireLegal_wireHigh h hn
  · exact wireLegal_wireLow h hn

theorem legalPrims_sendbyte (h : c.wf) (b : Byte) (rs : Bool) : LegalPrims c (Expand.sendbyte c true b rs) := by
  rw [sendbyte_eq_strobes true (rs, b)]
  exact .flatMap fun p _ => legalPrims_strobe h (nibbleByteOk_nibbleOf (flagsApart_of_wf h) p.2 p.1)

/-- A bootstrap nibble is legal where it goes through a strobe; the form that writes the value itself does not (D5). -/
theorem legalPrims_bootnib (h : c.wf) (hform : c.bootForm ≠ .rawWrite) (v : Nibble) :
    LegalPrims c (Expand.bootnib c true v) := by
  cases hf : c.bootForm with
  | strobedNibble =>
    have hboot : Expand.bootnib c true v = Expand.strobe c true (nibbleOf c v false) := by
      simp [Expand.bootnib, hf, ← bootNibble_eq_nibbleOf]
    exact hboot ▸ legalPrims_strobe h (nibbleByteOk_nibbleOf (flagsApart_of_wf h) v false)
  | fullByte =>
    have hboot : Expand.bootnib c true v = Expand.sendbyte c true (v.zeroExtend 8) false := by simp [Expand.bootnib, hf]
    exact hboot ▸ legalPrims_sendbyte h _ _
  | rawWrite => exact absurd hf hform

theorem legalPrims_init (h : c.wf) (hform : c.bootForm ≠ .rawWrite) : LegalPrims c (Expand.init c true) := by
  have boot := legalPrims_bootnib h hform
  have send (b : Byte) := legalPrims_sendbyte h b false
  exact ((((((((boot _).append (boot _)).append (boot _)).append (boot _)).append (send _)).append (send _)).append
    (send _)).append (send _)).append (.wait c .init)

theorem legalPrims_setaddr (h : c.wf) (row col : Byte) : LegalPrims c (Expand.setaddr c true row col) := by
  unfold Expand.setaddr
  split
  · exact legalPrims_sendbyte h _ _
  · exact .nil c

/-- The expansion of the running request is legal. -/
theorem legalPrims_expansion (hs : SafeState s) (hform : s.cfg.bootForm ≠ .rawWrite) : LegalPrims s.cfg (expansion s) := by
  have hwf := hs.cfgOk
  rw [expansion, hs.backlight]
  split
  · exact .nil _
  · exact legalPrims_init hwf hform
  · exact (legalPrims_sendbyte hwf _ _).append (legalPrims_sendbyte hwf _ _)
  · exact (legalPrims_setaddr hwf _ _).append (.flatMap fun b _ => legalPrims_sendbyte hwf b true)

/-! ### The trace of a step -/

theorem busWrites_append (es fs : List Event) : busWrites (es ++ fs) = busWrites es ++ busWrites fs := by
  induction es with
  | nil => rfl
  | cons e es ih =>
    cases e with
    | wr b r => rw [List.cons_append, busWrites, busWrites, ih, List.cons_append]
    | wait k => exact ih

/-- A delay adds no wire byte to a trace. -/
theorem traceLegal_append_wait {es : List Event} (h : traceLegal c es) (k : DelayClass) :
    traceLegal c (es ++ [.wait k]) := by
  rw [traceLegal, busWrites_append]
  exact List.forall_mem_append.2 ⟨h, List.forall_mem_nil _⟩

/-- A bus write adds its byte to a trace, whatever the answer. -/
theorem traceLegal_append_wr {es : List Event} {b : Byte} (h : traceLegal c es) (hb : wireLegal c b) (r : Reply) :
    traceLegal c (es ++ [.wr b r]) := by
  rw [traceLegal, busWrites_append]
  exact List.forall_mem_append.2 ⟨h, List.forall_mem_singleton.2 hb⟩

/-- What the port of an idle block is asked emits nothing itself. -/
theorem portStep_trace (h : portStep exec s = .next t) : t.trace = s.trace := by
  unfold portStep at h
  split at h
  · rw [Host.Outcome.next.inj h]
  · next r rest hq =>
    split at h
    · next i hi =>
      have hreq : i.isRequest = true := by obtain rfl | rfl | ⟨row, col, rfl⟩ := decodePort_cases hi <;> rfl
      exact (exec_request_trace hreq h).trans (takeRequest_trace s r rest)
    · rw [← Host.Outcome.next.inj h]
      rfl

/-- An idle block emits nothing. -/
theorem advance_trace_of_idle (hs : SafeState s) (hb : s.busy = false) (h : advance exec s = .next t) :
    t.trace = s.trace := by
  obtain ⟨htodo, -⟩ := (phaseShape_of_idle (hs.running_of_not_busy hb)).1 hs.shape
  have hport : advance exec s = portStep exec s := by simp [advance, htodo, hb]
  exact portStep_trace (hport ▸ h)

/-- A step of a running request whose expansion is legal keeps the trace legal: what it adds is `E[upc]`. -/
theorem PerformsNext.traceLegal (h : PerformsNext s t) (hlegal : LegalPrims c (expansion s))
    (htrace : traceLegal c s.trace) : traceLegal c t.trace := by
  obtain ⟨e, -⟩ | ⟨k, -, e, -⟩ | ⟨b, hat, e, -⟩ | ⟨b, hat, e, -⟩ := h <;> rw [e]
  · exact htrace
  · exact traceLegal_append_wait htrace k
  · exact traceLegal_append_wr htrace (hlegal b (List.mem_of_getElem? hat)) _
  · exact traceLegal_append_wr htrace (hlegal b (List.mem_of_getElem? hat)) _

/-- With the reset line low every step keeps the trace legal. -/
theorem advance_traceLegal (hs : SafeState s) (hform : s.cfg.bootForm ≠ .rawWrite) (htrace : traceLegal s.cfg s.trace)
    (h : advance exec s = .next t) : traceLegal s.cfg t.trace := by
  cases hb : s.busy with
  | false => rwa [advance_trace_of_idle hs hb h]
  | true => exact (advance_performs_next hs hb h).traceLegal (legalPrims_expansion hs hform) htrace

/-- Settles O60: reset and an idle block emit nothing, and a running request emits the next primitive of its expansion, whose
bytes are those of strobes. -/
theorem everyWireByteIsLegal : Obligations.EveryWireByteIsLegal := by
  intro s t hs hform htrace h
  obtain ⟨hcfg, -⟩ := parametersAndBacklightStay s t h
  rw [hcfg]
  obtain ⟨later, -, rfl⟩ | ⟨l, -, h⟩ := step_cases h
  · exact htrace
  · exact advance_traceLegal (s := { s with resetIn := l }) (hs.with_resetIn l) hform htrace h

/-! ### The strobe, and the byte it sends -/

/-- Settles O18. The premise on the nibble byte is not needed: EL clears the enable bit, and the backlight bit is another (R7). -/
theorem strobeClearsOnlyTheEnableBit : Obligations.StrobeClearsOnlyTheEnableBit := by
  intro c bl n hwf _
  have hc := flagsApart_of_wf hwf
  exact ⟨wireHigh_and_enBit bl n, wireLow_and_enBit hc bl n, wireLow_eq_wireHigh_and_not hc bl n⟩

/-- The four wire bytes of a byte sent. -/
theorem writeBytes_sendbyte (bl : Bool) (b : Byte) (rs : Bool) :
    writeBytes (Expand.sendbyte c bl b rs) =
      [wireHigh c bl (hiNibble c b rs), wireLow c bl (hiNibble c b rs), wireHigh c bl (loNibble c b rs),
        wireLow c bl (loNibble c b rs)] := rfl

/-- Settles O21: each of the four bytes is a wire byte of a nibble byte with the flag. -/
theorem registerSelectIsTheSameInAllFourBytes : Obligations.RegisterSelectIsTheSameInAllFourBytes := by
  intro c bl rs b hwf w hw
  have hc := flagsApart_of_wf hwf
  rw [writeBytes_sendbyte, hiNibble_eq_nibbleOf, loNibble_eq_nibbleOf] at hw
  simp only [List.mem_cons, List.not_mem_nil, or_false] at hw
  obtain rfl | rfl | rfl | rfl := hw
  · exact wireHigh_and_rsBit hc bl _ rs
  · exact wireLow_and_rsBit hc bl _ rs
  · exact wireHigh_and_rsBit hc bl _ rs
  · exact wireLow_and_rsBit hc bl _ rs

/-- Settles O22: the strobes of the two nibbles are latched in order, and the nibbles join into the byte. -/
theorem sendbyteDeliversItsByte : Obligations.SendbyteDeliversItsByte := by
  intro c rs b hwf
  have hlatched : latched c ((Expand.sendbyte c true b rs).map Prim.okEvent) = nibblesOf (rs, b) := by
    rw [sendbyte_eq_strobes true (rs, b)]
    exact latched_strobes (flagsApart_of_wf hwf) true (nibblesOf (rs, b))
  have hpair : pairNibbles (nibblesOf (rs, b)) = [(rs, b)] := pairNibbles_nibblesOf [(rs, b)]
  exact ⟨hlatched, by rw [hlatched, hpair]⟩

end Sys2Proof.Machine
end

section
/-! PROOFS of the encoder family, the operations: STROBE (O15), BOOTNIB (O16) and SENDBYTE (O17) run as written, and the frame
of every operation that stands for an expansion (O49). -/

namespace Sys2Proof.Machine

variable {s t : State} {tasks : List Task} {rest : List (Option Reply)}

/-! ### Runs of primitives answered `ok` -/

/-- A primitive as an operation of the sequencer. -/
def Prim.task : Prim → Task
  | .buswr b => .op (.buswr b)
  | .wait k => .op (.wait k)

/-- The step of a delay at the head of the sequencer. -/
theorem step_of_wait {k : DelayClass} (hr : s.resetIn = []) (ht : s.todo = .op (.wait k) :: tasks) :
    step s = .next (delay k { s with todo := tasks }) := step_of_op hr ht

/-- The step of a bus write at the head of the sequencer that is answered `ok`. -/
theorem step_of_buswr_ok {b : Byte} (hr : s.resetIn = []) (ht : s.todo = .op (.buswr b) :: tasks)
    (ha : s.replies = some .ok :: rest) : step s = .next (writeOk b { s with todo := tasks, replies := rest }) :=
  (step_of_op hr ht).trans (busWrite_ok b (s := { s with todo := tasks }) ha)

/-- The state after the primitives `e` with every write answered `ok`: `tasks` are left to do, and the answers `rest`. -/
def performed (e : List Prim) (tasks : List Task) (rest : List (Option Reply)) (s : State) : State :=
  { s with
    todo := tasks, replies := rest, pins := (writeBytes e).getLast?.getD s.pins, nwr := s.nwr + (writeBytes e).length
    upc := s.upc + e.length, trace := s.trace ++ e.map Prim.okEvent }

theorem performed_nil (ht : s.todo = tasks) (ha : s.replies = rest) : performed [] tasks rest s = s := by
  subst ht ha
  simp [performed, writeBytes]

/-- A delay, then the primitives after it. -/
theorem performed_wait (k : DelayClass) (e : List Prim) (left : List Task) :
    performed e tasks rest (delay k { s with todo := left }) = performed (.wait k :: e) tasks rest s := by
  simp [performed, delay, emit, writeBytes_wait, Prim.okEvent, Nat.add_assoc, Nat.add_comm 1]

/-- A bus write answered `ok`, then the primitives after it. -/
theorem performed_buswr (b : Byte) (e : List Prim) (left : List Task) (answers : List (Option Reply)) :
    performed e tasks rest (writeOk b { s with todo := left, replies := answers }) =
      performed (.buswr b :: e) tasks rest s := by
  simp [performed, writeOk, emit, writeBytes_buswr, List.getLast?_cons, Prim.okEvent, Nat.add_assoc, Nat.add_comm 1]

/-- Primitives at the head of the sequencer run one by one (R127). -/
theorem steps_prims {e : List Prim} (hr : s.resetIn = []) (ht : s.todo = e.map Prim.task ++ tasks)
    (ha : answersOk s (writeBytes e).length rest) : steps e.length s = .next (performed e tasks rest s) := by
  induction e generalizing s with
  | nil => exact congrArg Host.Outcome.next (performed_nil ht ha).symm
  | cons p e ih =>
    cases p with
    | wait k =>
      rw [← performed_wait k e (e.map Prim.task ++ tasks)]
      exact steps_head (step_of_wait hr ht) (ih hr rfl ha)
    | buswr b =>
      rw [← performed_buswr b e (e.map Prim.task ++ tasks) (List.replicate (writeBytes e).length (some .ok) ++ rest)]
      exact steps_head (step_of_buswr_ok hr ht ha) (ih hr rfl rfl)

/-- The state after a strobe of `n` with both writes answered `ok`: `tasks` are left to do, and the answers `rest`. -/
def strobed (n : Byte) (tasks : List Task) (rest : List (Option Reply)) (s : State) : State :=
  { s with
    nib := n, todo := tasks, replies := rest, pins := wireLow s.cfg s.bl n, nwr := s.nwr + 2, upc := s.upc + 6
    trace := s.trace ++ (Expand.strobe s.cfg s.bl n).map Prim.okEvent }

/-- The six primitives of a strobe, once `NIB` is loaded. -/
theorem steps_strobeTasks {n : Byte} (hr : s.resetIn = []) (ha : answersOk s 2 rest) :
    steps 6 (push (strobeTasks s.cfg s.bl n) { s with nib := n }) = .next (strobed n s.todo rest s) :=
  steps_prims (s := push (strobeTasks s.cfg s.bl n) { s with nib := n }) (e := Expand.strobe s.cfg s.bl n) hr rfl ha

/-- A strobe at the head of the sequencer. -/
theorem steps_strobe {n : Byte} (hr : s.resetIn = []) (ht : s.todo = .op (.strobe n) :: tasks) (ha : answersOk s 2 rest) :
    steps 7 s = .next (strobed n tasks rest s) :=
  steps_head (step_of_op hr ht) (steps_strobeTasks (s := { s with todo := tasks }) hr ha)

/-- Two strobes at the head of the sequencer. -/
theorem steps_two_strobes {m n : Byte} (hr : s.resetIn = []) (ht : s.todo = .op (.strobe m) :: .op (.strobe n) :: tasks)
    (ha : answersOk s 4 rest) :
    steps 14 s = .next { strobed n tasks rest s with
      nwr := s.nwr + 4, upc := s.upc + 12
      trace := s.trace ++ (Expand.strobe s.cfg s.bl m ++ Expand.strobe s.cfg s.bl n).map Prim.okEvent } := by
  have hfirst : steps 7 s = .next (strobed m (.op (.strobe n) :: tasks) (List.replicate 2 (some .ok) ++ rest) s) :=
    steps_strobe hr ht ha
  rw [steps_trans hfirst (steps_strobe hr rfl rfl)]
  simp [strobed]

/-- Settles O15: the load of `NIB`, then the run of the six primitives. -/
theorem strobeRunsSixPrimitives : Obligations.StrobeRunsSixPrimitives := fun _ _ _ hr ha =>
  ⟨_, rfl, rfl, steps_strobeTasks hr ha⟩

/-- Settles O17: the load of `CMD` and `RS`, then the run of the two strobes. -/
theorem sendbyteRunsTwoStrobes : Obligations.SendbyteRunsTwoStrobes := fun _ _ _ _ hr ha =>
  ⟨_, rfl, rfl, steps_two_strobes hr rfl ha⟩

/-! ### The bootstrap nibble (R145) -/

/-- A bootstrap nibble stands on bits 7:4 of its nibble byte. -/
theorem bootNibble_eq_append : ∀ v, bootNibble v = v ++ 0#4 := by decide

/-- Settles O16: one form of the bootstrap, one expansion. -/
theorem bootnibFollowsItsForm : Obligations.BootnibFollowsItsForm := by
  intro v s
  have hexec : exec (.bootnib v) s = .next { s with todo := bootTasks s.cfg v ++ s.todo } := rfl
  have hext : v.zeroExtend 8 = 0#4 ++ v := BitVec.setWidth_eq_append (by decide)
  refine ⟨fun hf => ?_, fun hf => ?_, fun hf => ?_⟩ <;> rw [hexec, bootTasks, hf]
  · rw [bootNibble_eq_append]
    rfl
  · rw [hext]
    rfl
  · rw [hext]
    rfl

/-! ### The frame of the operations that stand for an expansion -/

/-- An operation that writes no register: what is left to do is all that changes. -/
def WritesNoRegister (i : Instr) : Prop :=
  i ∈ [.cmdClear, .cmdHome] ∨ (∃ b, i = .wrdata b ∨ i = .data b) ∨ (∃ v, i = .bootnib v) ∨ (∃ x y, i = .cmdEntry x y) ∨
    (∃ x y z, i = .cmdDispctl x y z ∨ i = .cmdFuncset x y z) ∨ ∃ a, i = .cmdSetddram a

/-- Such an operation puts its expansion before the sequencer. -/
theorem WritesNoRegister.exec_eq_push {i : Instr} (hi : WritesNoRegister i) (s : State) :
    ∃ ts, exec i s = .next (push ts s) := by
  obtain hi | ⟨b, rfl | rfl⟩ | ⟨v, rfl⟩ | ⟨x, y, rfl⟩ | ⟨x, y, z, rfl | rfl⟩ | ⟨a, rfl⟩ := hi
  · obtain rfl | rfl : i = .cmdClear ∨ i = .cmdHome := by simpa using hi
    · exact ⟨_, rfl⟩
    · exact ⟨_, rfl⟩
  all_goals exact ⟨_, rfl⟩

/-- Settles O49: an operation of this kind loads its registers and puts its expansion before the sequencer; the row of a SETADDR
without an address is refused. -/
theorem expandingOperationsFrame : Obligations.ExpandingOperationsFrame := by
  intro i s t h
  refine ⟨fun hi => ?_, ?_, ?_, ?_⟩
  · obtain ⟨ts, e⟩ := WritesNoRegister.exec_eq_push hi s
    obtain rfl := Host.Outcome.next.inj (e.symm.trans h)
    simp [samePosition, sameControl, sameBus]
  · rintro b r rfl
    obtain rfl := Host.Outcome.next.inj h
    simp [samePosition, sameControl, sameBus]
  · rintro n rfl
    obtain rfl := Host.Outcome.next.inj h
    simp [samePosition, sameControl, sameBus]
  · rintro r k rfl
    obtain ⟨ha, e⟩ | ⟨a, ha, e⟩ := execSetaddr_cases r k s <;> obtain rfl := Host.Outcome.next.inj (e.symm.trans h)
    · simp [ha, refuse, giveResult, sameBus]
    · simp [ha, sameBus]

end Sys2Proof.Machine
end

section
/-! PROOFS of the initialization family: INIT is accepted (O26) and runs to `Ready` (O27), its wire bytes (O28), the nibbles it
latches (O29), and the transitions of `FSM` (O30). -/

namespace Sys2Proof.Machine

variable {s t u : State} {c : Config} {tasks : List Task} {rest : List (Option Reply)}

/-! ### The acceptance of INIT -/

/-- An idle block that is not initialised accepts INIT (R160, R219). -/
theorem exec_init_accepted (hb : s.busy = false) (hf : s.fsm = .poweredUnknown) :
    exec .init s = .next (accept .init (initProgram s.cfg) { s with istep := 0 }) := by
  obtain ⟨hb', -⟩ | ⟨-, hf', -⟩ | ⟨-, -, e⟩ := execInit_cases s
  · cases hb.symm.trans hb'
  · exact absurd hf hf'
  · exact e

/-- Settles O26: the accepted program is the nine steps, each with its assignment. -/
theorem initIsAccepted : Obligations.InitIsAccepted := fun _ hb hf => exec_init_accepted hb hf

/-! ### Runs of tasks answered `ok` -/

/-- Writes of expansions one after the other. -/
theorem writeBytes_append (e f : List Prim) : writeBytes (e ++ f) = writeBytes e ++ writeBytes f := List.filterMap_append

/-- The answers `ok` to two groups of bus writes are those to the first, and then those to the second. -/
theorem answersOk_append {e f : List Prim} (ha : answersOk s (writeBytes (e ++ f)).length rest) :
    answersOk s (writeBytes e).length (List.replicate (writeBytes f).length (some .ok) ++ rest) := by
  rw [answersOk, ha, writeBytes_append, List.length_append, List.replicate_add, List.append_assoc]

/-- Primitives performed in two groups. -/
theorem performed_performed (e f : List Prim) (left : List Task) (answers : List (Option Reply)) :
    performed f tasks rest (performed e left answers s) = performed (e ++ f) tasks rest s := by
  simp [performed, writeBytes_append, List.getLast?_append, Nat.add_assoc, Option.getD_or]

/-- From `s` the block comes to `t` by performing the primitives `e`, every write answered `ok`, down to these tasks and answers;
besides it writes the registers of the encoder, `FSM` and `ISTEP` alone. -/
def Performs (e : List Prim) (tasks : List Task) (rest : List (Option Reply)) (s t : State) : Prop :=
  (∃ k, steps k s = .next t) ∧ ∃ cmd rs nib fsm istep, t = performed e tasks rest { s with cmd, rs, nib, fsm, istep }

/-- Runs compose, and so do the primitives they perform. -/
theorem Performs.trans {e f : List Prim} {left : List Task} {answers : List (Option Reply)} (he : Performs e left answers s t)
    (hf : Performs f tasks rest t u) : Performs (e ++ f) tasks rest s u := by
  obtain ⟨⟨k, hk⟩, cmd, rs, nib, fsm, istep, rfl⟩ := he
  obtain ⟨⟨l, hl⟩, cmd', rs', nib', fsm', istep', rfl⟩ := hf
  exact ⟨⟨k + l, steps_trans hk hl⟩, cmd', rs', nib', fsm', istep',
    performed_performed (s := { s with cmd := cmd', rs := rs', nib := nib', fsm := fsm', istep := istep' }) ..⟩

theorem Performs.todo {e : List Prim} (h : Performs e tasks rest s t) : t.todo = tasks := by
  obtain ⟨-, cmd, rs, nib, fsm, istep, rfl⟩ := h
  rfl

theorem Performs.replies {e : List Prim} (h : Performs e tasks rest s t) : t.replies = rest := by
  obtain ⟨-, cmd, rs, nib, fsm, istep, rfl⟩ := h
  rfl

theorem Performs.noReset {e : List Prim} (h : Performs e tasks rest s t) (hr : s.resetIn = []) : t.resetIn = [] := by
  obtain ⟨-, cmd, rs, nib, fsm, istep, rfl⟩ := h
  exact hr

/-- It leaves what every task stands for. -/
theorem Performs.taskPrims_eq {e : List Prim} (h : Performs e tasks rest s t) : taskPrims t = taskPrims s := by
  obtain ⟨-, cmd, rs, nib, fsm, istep, rfl⟩ := h
  exact taskPrims_congr rfl rfl rfl rfl rfl

/-- Nothing is performed by doing nothing. -/
theorem Performs.refl (ht : s.todo = tasks) (ha : s.replies = rest) : Performs [] tasks rest s s :=
  ⟨⟨0, steps_zero s⟩, s.cmd, s.rs, s.nib, s.fsm, s.istep, (performed_nil ht ha).symm⟩

/-- A first step that performs no primitive. -/
theorem Performs.of_step {e : List Prim} {cmd nib : Byte} {rs : Bool} {todo : List Task}
    (hstep : step s = .next { s with cmd, rs, nib, todo }) (h : Performs e tasks rest { s with cmd, rs, nib, todo } t) :
    Performs e tasks rest s t := by
  obtain ⟨⟨k, hk⟩, last⟩ := h
  exact ⟨⟨k + 1, steps_head hstep hk⟩, last⟩

/-! ### The tasks of INIT, every write answered `ok` -/

/-- Primitives at the head of the sequencer. -/
theorem performs_prims {e : List Prim} (hr : s.resetIn = []) (ht : s.todo = e.map Prim.task ++ tasks)
    (ha : answersOk s (writeBytes e).length rest) : Performs e tasks rest s (performed e tasks rest s) :=
  ⟨⟨e.length, steps_prims hr ht ha⟩, s.cmd, s.rs, s.nib, s.fsm, s.istep, rfl⟩

/-- STROBE at the head of the sequencer. -/
theorem performs_strobe {n : Byte} (hr : s.resetIn = []) (ht : s.todo = .op (.strobe n) :: tasks) (ha : answersOk s 2 rest) :
    Performs (Expand.strobe s.cfg s.bl n) tasks rest s (strobed n tasks rest s) :=
  ⟨⟨7, steps_strobe hr ht ha⟩, s.cmd, s.rs, n, s.fsm, s.istep, rfl⟩

/-- SENDBYTE at the head of the sequencer. -/
theorem performs_sendbyte {b : Byte} {rs : Bool} (hr : s.resetIn = []) (ht : s.todo = .op (.sendbyte b rs) :: tasks)
    (ha : answersOk s 4 rest) :
    Performs (Expand.sendbyte s.cfg s.bl b rs) tasks rest s (performed (Expand.sendbyte s.cfg s.bl b rs) tasks rest
      { s with cmd := b, rs := rs, nib := loNibble s.cfg b rs }) :=
  ⟨⟨15, steps_head (step_of_op hr ht)
    (steps_two_strobes (s := push (sendTasks s.cfg b rs) { s with todo := tasks, cmd := b, rs := rs }) hr rfl ha)⟩,
    b, rs, loNibble s.cfg b rs, s.fsm, s.istep, rfl⟩

/-- WAIT at the head of the sequencer. -/
theorem performs_wait {k : DelayClass} (hr : s.resetIn = []) (ht : s.todo = .op (.wait k) :: tasks) (ha : s.replies = rest) :
    Performs [.wait k] tasks rest s (delay k { s with todo := tasks }) := by
  subst ha
  exact ⟨⟨1, steps_head (step_of_wait hr ht) (steps_zero _)⟩, s.cmd, s.rs, s.nib, s.fsm, s.istep, rfl⟩

/-- An assignment at the head of the sequencer. -/
theorem performs_initStep {n : Fin 10} (hr : s.resetIn = []) (ht : s.todo = .initStep n :: tasks) (ha : s.replies = rest) :
    Performs [] tasks rest s (setInitStep n { s with todo := tasks }) :=
  ⟨⟨1, steps_head (step_of_task hr ht) (steps_zero _)⟩, s.cmd, s.rs, s.nib, Fsm.ofStep n, n,
    (performed_nil (s := setInitStep n { s with todo := tasks }) rfl ha).symm⟩

/-- BOOTNIB at the head of the sequencer, in each form of the bootstrap. -/
theorem performs_bootnib {v : Nibble} (hr : s.resetIn = []) (ht : s.todo = .op (.bootnib v) :: tasks)
    (ha : answersOk s (writeBytes (Expand.bootnib s.cfg s.bl v)).length rest) :
    ∃ t, Performs (Expand.bootnib s.cfg s.bl v) tasks rest s t := by
  have hstep : step s = .next { s with todo := bootTasks s.cfg v ++ tasks } := step_of_op hr ht
  unfold Expand.bootnib at ha ⊢
  unfold bootTasks at hstep
  cases hf : s.cfg.bootForm <;> simp only [hf] at ha hstep ⊢
  case strobedNibble => exact ⟨_, .of_step hstep (performs_strobe hr rfl ha)⟩
  case fullByte => exact ⟨_, .of_step hstep (performs_sendbyte hr rfl ha)⟩
  case rawWrite =>
    exact ⟨_, .of_step hstep (performs_prims (e := [.buswr (v.zeroExtend 8), .wait .wr]) hr rfl ha)⟩

/-- The tasks of INIT before its last delay: bytes and bootstrap nibbles to send, and assignments. -/
def Task.isSend : Task → Bool
  | .op (.bootnib _) | .op (.sendbyte _ _) | .initStep _ => true
  | _ => false

/-- Such a task performs the primitives it stands for. -/
theorem performs_send {x : Task} (hx : x.isSend = true) (hr : s.resetIn = []) (ht : s.todo = x :: tasks)
    (ha : answersOk s (writeBytes (taskPrims s x)).length rest) : ∃ t, Performs (taskPrims s x) tasks rest s t := by
  unfold Task.isSend at hx
  split at hx
  · exact performs_bootnib hr ht ha
  · exact ⟨_, performs_sendbyte hr ht ha⟩
  · exact ⟨_, performs_initStep hr ht ha⟩
  · cases hx

/-- So do such tasks one after the other. -/
theorem performs_sends {xs : List Task} (hxs : ∀ x ∈ xs, x.isSend = true) (hr : s.resetIn = [])
    (ht : s.todo = xs ++ tasks) (ha : answersOk s (writeBytes (xs.flatMap (taskPrims s))).length rest) :
    ∃ t, Performs (xs.flatMap (taskPrims s)) tasks rest s t := by
  induction xs generalizing s with
  | nil => exact ⟨s, .refl ht ha⟩
  | cons x xs ih =>
    obtain ⟨hx, hxs⟩ := List.forall_mem_cons.1 hxs
    obtain ⟨t, hfirst⟩ := performs_send hx hr ht (answersOk_append ha)
    have hrest := ih hxs (hfirst.noReset hr) hfirst.todo
    rw [hfirst.taskPrims_eq] at hrest
    obtain ⟨u, hlater⟩ := hrest hfirst.replies
    exact ⟨u, hfirst.trans hlater⟩

/-- The program of INIT is tasks that send, then the last command, the delay, and their assignments. -/
theorem initProgram_split (c : Config) :
    ∃ xs, (∀ x ∈ xs, x.isSend = true) ∧
      initProgram c = xs ++ [.op (.sendbyte c.cmdEntry false), .initStep 8, .op (.wait .init), .initStep 9] :=
  ⟨(initProgram c).take 14, by simp [initProgram, Task.isSend], rfl⟩

/-- The program of INIT performs its expansion; `RS` is then that of the last command, `FSM` and `ISTEP` those of the last
assignment. -/
theorem performs_initProgram (hr : s.resetIn = []) (ht : s.todo = initProgram s.cfg)
    (ha : answersOk s (writeBytes (Expand.init s.cfg s.bl)).length rest) :
    ∃ t, Performs (Expand.init s.cfg s.bl) [] rest s t ∧ t.rs = false ∧ t.fsm = .ready ∧ t.istep = 9 := by
  obtain ⟨xs, hxs, hprog⟩ := initProgram_split s.cfg
  have hexp : Expand.init s.cfg s.bl =
      xs.flatMap (taskPrims s) ++ (Expand.sendbyte s.cfg s.bl s.cfg.cmdEntry false ++ [.wait .init]) := by
    rw [← flatMap_initProgram, hprog, List.flatMap_append]
    rfl
  rw [hexp] at ha ⊢
  obtain ⟨t, hsends⟩ := performs_sends hxs hr (ht.trans hprog) (answersOk_append ha)
  have hsame : Expand.sendbyte t.cfg t.bl s.cfg.cmdEntry false = Expand.sendbyte s.cfg s.bl s.cfg.cmdEntry false :=
    congrFun hsends.taskPrims_eq (.op (.sendbyte s.cfg.cmdEntry false))
  have hlast := performs_sendbyte (hsends.noReset hr) hsends.todo hsends.replies
  have hset := performs_initStep (hlast.noReset (hsends.noReset hr)) hlast.todo hlast.replies
  have hrest := hsends.trans (hlast.trans hset)
  have hdelay := performs_wait (hrest.noReset hr) hrest.todo hrest.replies
  have hend := performs_initStep (hdelay.noReset (hrest.noReset hr)) hdelay.todo hdelay.replies
  rw [← hsame]
  exact ⟨_, hsends.trans (hlast.trans (hset.trans (hdelay.trans hend))), rfl, rfl, rfl⟩

/-- Settles O27: the accepted request performs its expansion, and then nothing is left to do. -/
theorem initRunsToReady : Obligations.InitRunsToReady := by
  intro s rest hb hf hr ha
  obtain ⟨t, ⟨⟨k, hk⟩, cmd, rs, nib, fsm, istep, rfl⟩, rfl, rfl, rfl⟩ :=
    performs_initProgram (s := accept .init (initProgram s.cfg) { s with istep := 0 }) hr rfl ha
  have hend := steps_trans hk (steps_head (step_of_done hr rfl rfl) (steps_zero _))
  exact ⟨_, _, _, exec_init_accepted hb hf, rfl, hend, rfl, rfl, rfl, rfl, rfl, rfl, rfl, rfl, rfl, rfl, Nat.zero_add _,
    ⟨rfl, rfl, rfl, rfl, rfl⟩, rfl, rfl, fun _ => rfl, rfl, rfl⟩

/-! ### What INIT puts on the wire -/

/-- Nibbles strobed one after the other, each with its register-select flag. -/
def strobeAll (c : Config) (bl : Bool) (ps : List (Bool × Nibble)) : List Prim :=
  ps.flatMap fun p => Expand.strobe c bl (nibbleOf c p.2 p.1)

/-- The nibbles a bootstrap value is strobed as, in the forms of the bootstrap that go through a strobe. -/
def bootNibbles (c : Config) (v : Nibble) : List (Bool × Nibble) :=
  match c.bootForm with
  | .strobedNibble => [(false, v)]
  | .fullByte => nibblesOf (false, v.zeroExtend 8)
  | .rawWrite => []

/-- The nibbles of the four bootstrap values. -/
def bootstrapNibbles (c : Config) : List (Bool × Nibble) :=
  [c.bootNib8, c.bootNib8, c.bootNib8, c.bootNib4].flatMap (bootNibbles c)

/-- The four commands of INIT. -/
def initCommands (c : Config) : List (Bool × Byte) :=
  [(false, c.cmdFuncset), (false, c.cmdDispctl), (false, c.cmdClear), (false, c.cmdEntry)]

theorem bootnib_eq_strobeAll (hform : c.bootForm ≠ .rawWrite) (bl : Bool) (v : Nibble) :
    Expand.bootnib c bl v = strobeAll c bl (bootNibbles c v) := by
  cases hf : c.bootForm with
  | strobedNibble => simp [Expand.bootnib, strobeAll, bootNibbles, hf, ← bootNibble_eq_nibbleOf]
  | fullByte =>
    have hsend := sendbyte_eq_strobes (c := c) bl (false, v.zeroExtend 8)
    simpa only [Expand.bootnib, strobeAll, bootNibbles, hf] using hsend
  | rawWrite => exact absurd hf hform

/-- INIT strobes its bootstrap nibbles and then the nibbles of its commands, and ends with its delay. -/
theorem init_eq_strobeAll (hform : c.bootForm ≠ .rawWrite) (bl : Bool) :
    Expand.init c bl = strobeAll c bl (bootstrapNibbles c ++ (initCommands c).flatMap nibblesOf) ++ [.wait .init] := by
  have hsend (b : Byte) : Expand.sendbyte c bl b false = strobeAll c bl (nibblesOf (false, b)) :=
    sendbyte_eq_strobes bl (false, b)
  simp only [Expand.init, bootnib_eq_strobeAll hform, hsend]
  simp [strobeAll, bootstrapNibbles, initCommands]

/-- Every nibble of INIT has the register-select flag 0. -/
theorem initNibbles_flag (c : Config) :
    ∀ p ∈ bootstrapNibbles c ++ (initCommands c).flatMap nibblesOf, p.1 = false := by
  cases hf : c.bootForm <;> simp [bootstrapNibbles, bootNibbles, initCommands, nibblesOf, hf]

/-- The bus writes of a list of primitives are its bytes. -/
theorem mem_writeBytes {w : Byte} {e : List Prim} : w ∈ writeBytes e ↔ .buswr w ∈ e := by
  refine List.mem_filterMap.trans ⟨?_, fun h => ⟨_, h, rfl⟩⟩
  rintro ⟨p, hp, hw⟩
  cases p with
  | buswr b => exact Option.some.inj hw ▸ hp
  | wait k => cases hw

/-- Every wire byte of strobed nibbles is one of the two of a nibble byte. -/
theorem mem_strobeAll {bl : Bool} {w : Byte} {ps : List (Bool × Nibble)} (h : .buswr w ∈ strobeAll c bl ps) :
    ∃ p ∈ ps, w = wireHigh c bl (nibbleOf c p.2 p.1) ∨ w = wireLow c bl (nibbleOf c p.2 p.1) := by
  obtain ⟨p, hp, hw⟩ := List.mem_flatMap.1 h
  exact ⟨p, hp, by simpa [Expand.strobe] using hw⟩

/-- The register-select bit of every wire byte of INIT is 0. -/
theorem init_rsBit_clear (hc : FlagsApart c) (hform : c.bootForm ≠ .rawWrite) {bl : Bool} {w : Byte}
    (hw : .buswr w ∈ Expand.init c bl) : w &&& c.rsBit = 0#8 := by
  rw [init_eq_strobeAll hform] at hw
  obtain ⟨⟨r, d⟩, hp, hwire⟩ := mem_strobeAll (by simpa using hw)
  obtain rfl : r = false := initNibbles_flag c _ hp
  obtain rfl | rfl := hwire
  · exact wireHigh_and_rsBit hc bl d false
  · exact wireLow_and_rsBit hc bl d false

/-- Settles O28: INIT strobes nibbles with the flag 0, and its wire bytes are legal. -/
theorem initKeepsRegisterSelectClear : Obligations.InitKeepsRegisterSelectClear := by
  intro c hwf hform w hw
  have hmem := mem_writeBytes.1 hw
  obtain ⟨hbl, -⟩ := legalPrims_init hwf hform w hmem
  exact ⟨init_rsBit_clear (flagsApart_of_wf hwf) hform hmem, hbl⟩

/-- A delay at the end of an expansion latches nothing. -/
theorem latched_append_wait (e : List Prim) (k : DelayClass) :
    latched c ((e ++ [Prim.wait k]).map Prim.okEvent) = latched c (e.map Prim.okEvent) := by
  rw [latched, List.map_append, busWrites_append]
  exact congrArg (latchedOf c) (List.append_nil _)

/-- Settles O29: what is latched are the nibbles strobed, and those after the bootstrap pair into the commands. -/
theorem initLatchesBootstrapThenCommands : Obligations.InitLatchesBootstrapThenCommands := by
  intro c hwf hform
  have hboot : bootstrapNibbles c = [(false, c.bootNib8), (false, c.bootNib8), (false, c.bootNib8), (false, c.bootNib4)] := by
    simp [bootstrapNibbles, bootNibbles, hform]
  refine ⟨(initCommands c).flatMap nibblesOf, ?_, pairNibbles_nibblesOf _⟩
  rw [init_eq_strobeAll (by simp [hform]), latched_append_wait, ← hboot]
  exact latched_strobes (flagsApart_of_wf hwf) true _

/-! ### The transitions of `FSM` (R162) -/

/-- What a step without reset may do to `FSM` and `ISTEP`: nothing, the next step of INIT, or the end of INIT at a failed write. -/
def FsmMoves (s t : State) : Prop :=
  (t.fsm = s.fsm ∧ t.istep = s.istep) ∨
  (s.running = some .init ∧ s.fsm = Fsm.ofStep s.istep ∧ t.istep.val = s.istep.val + 1 ∧ t.fsm = Fsm.ofStep t.istep) ∨
  (s.running = some .init ∧ s.fsm ≠ .ready ∧ t.istep = s.istep ∧ t.fsm = .initFailed ∧ t.busy = false ∧
    t.result.code = .initError)

/-- `Ready` is the named state of the last step only (R29). -/
theorem ofStep_ne_ready : ∀ n : Fin 10, n.val < 9 → Fsm.ofStep n ≠ .ready := by decide

/-- After the operation of a step of INIT stands the assignment of the next `ISTEP`. -/
theorem initProgram_drop_odd_head (c : Config) {n m : Fin 10} {rest : List Task} (h : n.val < 9)
    (ht : .initStep m :: rest = (initProgram c).drop (2 * n.val + 1)) : m.val = n.val + 1 := by
  cases n using Fin.lastCases with
  | last => exact absurd h (by decide)
  | cast k =>
    have hk : ((initProgram c).drop (2 * k.castSucc.val + 1)).head? = some (.initStep k.succ) := by fin_cases k <;> rfl
    rw [← ht] at hk
    exact congrArg Fin.val (Task.initStep.inj (Option.some.inj hk))

/-- An assignment at the head of the sequencer is INIT's, and is that of the next `ISTEP`. -/
theorem phaseShape_initStep {n : Fin 10} (h : phaseShape s) (ht : s.todo = .initStep n :: tasks) :
    s.running = some .init ∧ s.fsm = Fsm.ofStep s.istep ∧ n.val = s.istep.val + 1 := by
  obtain hr | ⟨job, hr⟩ := Option.eq_none_or_eq_some s.running
  · obtain ⟨e, -⟩ := (phaseShape_of_idle hr).1 h
    rw [ht] at e; cases e
  · cases job with
    | init =>
      have hinit := (phaseShape_of_init hr).1 h
      obtain ⟨-, e⟩ | ⟨hlt, front, hf, e⟩ := initShape_tasks hinit
      · rw [ht] at e; cases e
      · obtain e | ⟨hi, -⟩ := hf.head_cases (ht ▸ e)
        · obtain ⟨hfsm, -⟩ := hinit
          exact ⟨hr, hfsm, initProgram_drop_odd_head _ hlt e⟩
        · cases hi
    | clear =>
      obtain ⟨-, -, hall⟩ := (phaseShape_of_clear hr).1 h
      cases hall _ (ht ▸ List.mem_cons_self)
    | wrstr =>
      obtain ⟨-, -, -, -, front, hf, e | ⟨-, e⟩ | ⟨e, -⟩⟩ := (phaseShape_of_wrstr hr).1 h
      · obtain e | ⟨hi, -⟩ := AllInner.head_cases hf (ht ▸ e)
        · cases e
        · cases hi
      · obtain e | ⟨hi, -⟩ := AllInner.head_cases hf (ht ▸ e)
        · cases e
        · cases hi
      · rw [ht] at e; cases e

/-- INIT with something left to do is not `Ready`. -/
theorem initShape_ne_ready {x : Task} (h : initShape s) (ht : s.todo = x :: tasks) : s.fsm ≠ .ready := by
  obtain ⟨-, e⟩ | ⟨hlt, -⟩ := initShape_tasks h
  · rw [ht] at e; cases e
  · obtain ⟨hfsm, -⟩ := h
    exact hfsm ▸ ofStep_ne_ready _ hlt

/-- The operation at the head of the sequencer moves `FSM` only as a failed write of INIT. -/
theorem exec_inner_fsmMoves {i : Instr} (h : phaseShape s) (ht : s.todo = .op i :: tasks)
    (he : exec i { s with todo := tasks } = .next t) : FsmMoves s t := by
  obtain ⟨hi, -⟩ := phaseShape_head h ht
  obtain ⟨b, -, e⟩ | ⟨k, -, e⟩ | ⟨front, u, e, -, -, -, hq⟩ := inner_exec i { s with todo := tasks } hi
  · obtain ⟨rs, d, rfl | rfl⟩ := busWrite_cases (e.symm.trans he)
    · exact .inl ⟨rfl, rfl⟩
    · by_cases hr : s.running = some .init
      · exact .inr (.inr ⟨hr, initShape_ne_ready ((phaseShape_of_init hr).1 h) ht, rfl, if_pos hr, rfl, if_pos hr⟩)
      · exact .inl ⟨if_neg hr, rfl⟩
  · obtain rfl := Host.Outcome.next.inj (e.symm.trans he)
    exact .inl ⟨rfl, rfl⟩
  · obtain rfl := Host.Outcome.next.inj (e.symm.trans he)
    obtain ⟨-, -, ⟨hfsm, histep, -⟩, -⟩ := hq
    exact .inl ⟨hfsm, histep⟩

/-- With no request running and the block not initialised, `ISTEP` is 0. -/
theorem SafeState.istep_of_poweredUnknown (hs : SafeState s) (hrun : s.running = none) (hfsm : s.fsm = .poweredUnknown) :
    s.istep = 0 := by
  simpa [hfsm] using ((phaseShape_of_idle hrun).1 hs.shape).2

/-- No request moves `FSM` or `ISTEP`, whatever its answer: where INIT is accepted and sets `ISTEP` to 0, it is 0. -/
theorem exec_request_fsm_istep {i : Instr} (hi : i.isRequest = true) (hzero : s.fsm = .poweredUnknown → s.istep = 0)
    (h : exec i s = .next t) : t.fsm = s.fsm ∧ t.istep = s.istep := by
  obtain rfl | rfl | ⟨row, col, rfl⟩ := isRequest_cases hi
  · obtain ⟨-, e⟩ | ⟨-, -, e⟩ | ⟨-, hfsm, e⟩ := execInit_cases s <;> obtain rfl := Host.Outcome.next.inj (e.symm.trans h)
    · exact ⟨rfl, rfl⟩
    · exact ⟨rfl, rfl⟩
    · exact ⟨rfl, (hzero hfsm).symm⟩
  · obtain ⟨-, e⟩ | ⟨-, -, e⟩ | ⟨-, -, e⟩ := execClear_cases s <;>
      obtain rfl := Host.Outcome.next.inj (e.symm.trans h) <;> exact ⟨rfl, rfl⟩
  · obtain ⟨-, e⟩ | ⟨-, -, e⟩ | ⟨-, -, -, e⟩ | ⟨-, -, a, -, e⟩ := execWrstr_cases row col s <;>
      obtain rfl := Host.Outcome.next.inj (e.symm.trans h) <;> exact ⟨rfl, rfl⟩

/-- Every request word is a request. -/
theorem isRequest_of_decodePort {r : Request} {i : Instr} (h : decodePort r = some i) : i.isRequest = true := by
  obtain rfl | rfl | ⟨row, col, rfl⟩ := decodePort_cases h <;> rfl

/-- With the reset line low an assignment and a failed write of INIT are all that moves `FSM`. -/
theorem advance_fsmMoves (hs : SafeState s) (h : advance exec s = .next t) : FsmMoves s t := by
  obtain ⟨i, rest, ht, he⟩ | ⟨n, rest, ht, rfl⟩ | ⟨rest, b, -, -, -, rfl⟩ | ⟨rest, -, -, rfl⟩ | ⟨rest, -, rfl⟩ |
    ⟨-, -, rfl⟩ | ⟨-, -, -, rfl⟩ | ⟨r, rest, i, -, hb, -, hi, he⟩ | ⟨r, rest, -, -, -, -, rfl⟩ := advance_cases h
  · exact exec_inner_fsmMoves hs.shape ht he
  · obtain ⟨hr, hfsm, hn⟩ := phaseShape_initStep hs.shape ht
    exact .inr (.inl ⟨hr, hfsm, hn, rfl⟩)
  · exact .inl ⟨rfl, rfl⟩
  · exact .inl ⟨rfl, rfl⟩
  · exact .inl ⟨rfl, rfl⟩
  · exact .inl ⟨rfl, rfl⟩
  · exact .inl ⟨rfl, rfl⟩
  · have hzero := hs.istep_of_poweredUnknown (hs.running_of_not_busy hb)
    exact .inl (exec_request_fsm_istep (s := takeRequest r rest s) (isRequest_of_decodePort hi) hzero he)
  · exact .inl ⟨rfl, rfl⟩

/-- Settles O30: without reset a step is a step of the block. -/
theorem fsmMovesOnlyByInitOrReset : Obligations.FsmMovesOnlyByInitOrReset := by
  intro s t hs hline h
  obtain ⟨later, hr, -⟩ | ⟨l, -, h⟩ := step_cases h
  · exact absurd (by rw [hr, List.head?_cons]) hline
  · have hmoves : FsmMoves { s with resetIn := l } t := advance_fsmMoves (hs.with_resetIn l) h
    exact hmoves

end Sys2Proof.Machine
end

section
/-! PROOFS of the display family, the operations: the acceptance of CLEAR (O31) and WRSTR (O39), WRDATA (O38), the address byte
of SETADDR (O34, O36, O37), the rows without a base (O43), and the register select of WRSTR (O41). -/

namespace Sys2Proof.Machine

variable {s : State} {c : Config} {row col a : Byte}

/-! ### The acceptance of CLEAR and WRSTR, and WRDATA -/

/-- An idle block that is ready accepts CLEAR (R181, R219). -/
theorem exec_clear_accepted (hb : s.busy = false) (hf : s.fsm = .ready) :
    exec .clear s = .next (accept .clear (clearProgram s.cfg) s) := by
  obtain ⟨hb', -⟩ | ⟨-, hf', -⟩ | ⟨-, -, e⟩ := execClear_cases s
  · cases hb.symm.trans hb'
  · exact absurd hf hf'
  · exact e

/-- Settles O31: the accepted program is the two commands. -/
theorem clearIsAccepted : Obligations.ClearIsAccepted := fun _ hb hf => exec_clear_accepted hb hf

/-- An idle block that is ready accepts WRSTR of a row that has an address (R186, R219). -/
theorem exec_wrstr_accepted (hb : s.busy = false) (hf : s.fsm = .ready) (ha : addrByte s.cfg row col ≠ none) :
    exec (.wrstr row col) s = .next (accept .wrstr (wrstrProgram row col)
      { s with row := row, col := col, len := Memory.size s.txt, idx := 0 }) := by
  obtain ⟨hb', -⟩ | ⟨-, hf', -⟩ | ⟨-, -, ha', -⟩ | ⟨-, -, -, -, e⟩ := execWrstr_cases row col s
  · cases hb.symm.trans hb'
  · exact absurd hf hf'
  · exact absurd ha' ha
  · exact e

/-- An idle block that is ready refuses WRSTR of a row that has none (R189). -/
theorem exec_wrstr_badRow (hb : s.busy = false) (hf : s.fsm = .ready) (ha : addrByte s.cfg row col = none) :
    exec (.wrstr row col) s = .next (refuse .badRow s) := by
  obtain ⟨hb', -⟩ | ⟨-, hf', -⟩ | ⟨-, -, -, e⟩ | ⟨-, -, a, ha', -⟩ := execWrstr_cases row col s
  · cases hb.symm.trans hb'
  · exact absurd hf hf'
  · exact e
  · cases ha.symm.trans ha'

/-- Settles O39: the accepted program is the address and the loop. -/
theorem wrstrIsAccepted : Obligations.WrstrIsAccepted := fun _ _ _ hb hf ha => exec_wrstr_accepted hb hf ha

/-- Settles O38: WRDATA is one byte sent with `RS = 1`. -/
theorem wrdataSendsToTheDataRegister : Obligations.WrdataSendsToTheDataRegister := fun _ _ => rfl

/-! ### The address byte -/

/-- A row that has a base has the address of the sum (R183). -/
theorem addrByte_of_base {base : Byte} (h : rowBaseOf c row = some base) (col : Byte) :
    addrByte c row col = some (addrSum c base col) := by simp only [addrByte, h]

/-- A row without a base has no address where the policy refuses it (R189). -/
theorem addrByte_of_refuse (h : rowBaseOf c row = none) (hp : c.rowPolicy = .refuse) (col : Byte) :
    addrByte c row col = none := by simp only [addrByte, h, hp]

/-- A row without a base has base 0 where the policy says so (R189). -/
theorem addrByte_of_zeroOffset (h : rowBaseOf c row = none) (hp : c.rowPolicy = .zeroOffset) (col : Byte) :
    addrByte c row col = some (c.cmdSetddram + col) := by simp only [addrByte, h, hp, addrSum, BitVec.add_zero]

/-- A row without a base has position 0 where the policy says so (R189). -/
theorem addrByte_of_zeroPosition (h : rowBaseOf c row = none) (hp : c.rowPolicy = .zeroPosition) (col : Byte) :
    addrByte c row col = some c.cmdSetddram := by simp only [addrByte, h, hp]

/-- The sum of an address is taken modulo 256 (R95). -/
theorem addrSum_toNat (c : Config) (base col : Byte) :
    (addrSum c base col).toNat = (c.cmdSetddram.toNat + base.toNat + col.toNat) % 256 := by
  rw [addrSum, BitVec.toNat_add, BitVec.toNat_add, Nat.mod_add_mod]

/-- SETADDR of a row that has an address loads it and sends it as a command (R183). -/
theorem exec_setaddr_of_addr (h : addrByte s.cfg row col = some a) :
    exec (.setaddr row col) s = .next (push [.op (.sendbyte a false)] { s with addr := a }) := by
  obtain ⟨h', -⟩ | ⟨a', h', e⟩ := execSetaddr_cases row col s
  · cases h.symm.trans h'
  · obtain rfl := Option.some.inj (h.symm.trans h')
    exact e

/-- SETADDR of a row that has none is refused. -/
theorem exec_setaddr_badRow (h : addrByte s.cfg row col = none) : exec (.setaddr row col) s = .next (refuse .badRow s) := by
  obtain ⟨-, e⟩ | ⟨a, h', -⟩ := execSetaddr_cases row col s
  · exact e
  · cases h.symm.trans h'

/-- Settles O34: the address byte of a row with a base, and of one without under each policy. -/
theorem setaddrComputesTheAddressByte : Obligations.SetaddrComputesTheAddressByte := by
  intro row col s
  refine ⟨fun base hbase => ?_, fun hbase => ?_⟩
  · exact ⟨_, addrSum_toNat s.cfg base col, exec_setaddr_of_addr (addrByte_of_base hbase col)⟩
  · exact ⟨fun hp => exec_setaddr_badRow (addrByte_of_refuse hbase hp col),
      fun hp => exec_setaddr_of_addr (addrByte_of_zeroOffset hbase hp col),
      fun hp => exec_setaddr_of_addr (addrByte_of_zeroPosition hbase hp col)⟩

/-- The bases of the design are all below `0x80` (R184). -/
theorem rowBaseOf_default_lt {base : Byte} (h : rowBaseOf Config.default row = some base) : base.toNat < 0x80 := by
  have hlt : ∀ b ∈ Config.default.rowBase, b.toNat < 0x80 := by decide
  unfold rowBaseOf at h
  split at h
  · exact hlt base (List.mem_of_getElem? h)
  · cases h

/-- Settles O36: the base is below `0x80`, so that the boundary is a column, and the sum stands in `ADDR` modulo 256. -/
theorem addressSumWrapsSilently : Obligations.AddressSumWrapsSilently := by
  intro row col base s hcfg hbase
  have hlt : base.toNat < 0x80 := rowBaseOf_default_lt (hcfg ▸ hbase)
  have hcol : col.toNat < 256 := col.isLt
  have hsum : (addrSum s.cfg base col).toNat = (0x80 + base.toNat + col.toNat) % 256 := by
    rw [addrSum_toNat, hcfg]
    rfl
  refine ⟨by omega, _, exec_setaddr_of_addr (addrByte_of_base hbase col), ?_, rfl, rfl⟩
  change (addrSum s.cfg base col).toNat = _
  split <;> omega

/-- Refutes O37: row 4 with column `0xFF` wraps to `0xD3`, whose bit 7 is set. -/
theorem not_wrappedAddressAlwaysHasBit7Clear : ¬ Obligations.WrappedAddressAlwaysHasBit7Clear := by
  intro h
  obtain ⟨-, hclear⟩ := h 4#8 0xFF#8 0x54#8 (by decide) (by decide)
  exact absurd (hclear 0xD3#8 (by decide)) (by decide)

/-- Settles O43: such a row has no base, and the policy says whether it has an address. -/
theorem rowOutsideOneToFourFollowsThePolicy : Obligations.RowOutsideOneToFourFollowsThePolicy := by
  intro row col s policy hcfg hrow hb hf
  have hbase : rowBaseOf s.cfg row = none := rowBaseOf_outside (by rw [hcfg]; exact hrow)
  have hpolicy : s.cfg.rowPolicy = policy := by rw [hcfg]
  have hcmd : s.cfg.cmdSetddram = 0x80#8 := by rw [hcfg]; rfl
  have haccept {a : Byte} (ha : addrByte s.cfg row col = some a) :
      ∃ t, exec (.wrstr row col) s = .next t ∧ t.busy = true ∧ t.running = some .wrstr :=
    ⟨_, exec_wrstr_accepted hb hf (by simp [ha]), rfl, rfl⟩
  refine ⟨?_, ?_, ?_⟩ <;> rintro rfl
  · exact exec_wrstr_badRow hb hf (addrByte_of_refuse hbase hpolicy col)
  · have haddr := addrByte_of_zeroOffset hbase hpolicy col
    exact ⟨hcmd ▸ haddr, haccept haddr⟩
  · have haddr := addrByte_of_zeroPosition hbase hpolicy col
    exact ⟨hcmd ▸ haddr, haccept haddr⟩

/-! ### The register select of WRSTR -/

/-- WRSTR of a row that has an address expands to the address sent as a command and then the text (R98). -/
theorem wrstr_expansion_of_addr (h : addrByte c row col = some a) (bl : Bool) (text : List Byte) :
    Expand.wrstr c bl row col text = Expand.sendbyte c bl a false ++ Expand.text c bl text := by
  rw [Expand.wrstr, Expand.setaddr, h]

/-- Settles O41: the four writes of the address, and those of the bytes of the text. -/
theorem wrstrRegisterSelectPhases : Obligations.WrstrRegisterSelectPhases := by
  intro c row col a text hwf ha
  refine ⟨writeBytes (Expand.sendbyte c true a false), writeBytes (Expand.text c true text), ?_, rfl, ?_, fun w hw => ?_⟩
  · rw [wrstr_expansion_of_addr ha, writeBytes_append]
  · exact registerSelectIsTheSameInAllFourBytes c true false a hwf
  · obtain ⟨b, -, hb⟩ := List.mem_flatMap.1 (mem_writeBytes.1 hw)
    exact registerSelectIsTheSameInAllFourBytes c true true b hwf w (mem_writeBytes.2 hb)

end Sys2Proof.Machine
end

section
/-! PROOFS of the display family, the runs with every answer `ok`: CLEAR (O32), two CLEARs (O33), and WRSTR (O40). -/

namespace Sys2Proof.Machine

variable {s t u : State} {c : Config} {row col a : Byte} {tasks : List Task} {rest : List (Option Reply)}

/-! ### Runs of some number of steps -/

/-- Some number of steps leads from `s` to `t`. -/
def Reaches (s t : State) : Prop := ∃ k, steps k s = .next t

/-- One step. -/
theorem Reaches.single (h : step s = .next t) : Reaches s t := ⟨1, steps_head h (steps_zero t)⟩

/-- A step, and then some number of steps. -/
theorem Reaches.of_step (h : step s = .next t) (hr : Reaches t u) : Reaches s u := by
  obtain ⟨k, hk⟩ := hr
  exact ⟨k + 1, steps_head h hk⟩

/-- Runs compose. -/
theorem Reaches.trans (h : Reaches s t) (h' : Reaches t u) : Reaches s u := by
  obtain ⟨k, hk⟩ := h
  obtain ⟨l, hl⟩ := h'
  exact ⟨k + l, steps_trans hk hl⟩

/-- The end of a running request of which nothing is left. -/
theorem reaches_complete (hr : s.resetIn = []) (ht : s.todo = []) (hb : s.busy = true) : Reaches s (complete s) :=
  .single (step_of_done hr ht hb)

/-- The answers to two groups of bus writes, by their numbers. -/
theorem answersOk_add {m n : Nat} (ha : answersOk s (m + n) rest) :
    answersOk s m (List.replicate n (some .ok) ++ rest) := by
  rw [answersOk, ha, List.replicate_add, List.append_assoc]

/-! ### CLEAR with every answer `ok` -/

/-- The state after CLEAR with every write answered `ok`, and the answers `rest` left. -/
def cleared (rest : List (Option Reply)) (s : State) : State :=
  complete (performed (Expand.clear s.cfg s.bl) [] rest (accept .clear []
    { s with cmd := s.cfg.cmdHome, rs := false, nib := loNibble s.cfg s.cfg.cmdHome false }))

/-- An accepted CLEAR sends its two commands and ends. -/
theorem reaches_cleared (hr : s.resetIn = []) (ha : answersOk s 8 rest) :
    Reaches (accept .clear (clearProgram s.cfg) s) (cleared rest s) := by
  have hfirst := performs_sendbyte (s := accept .clear (clearProgram s.cfg) s) hr rfl (answersOk_add (m := 4) (n := 4) ha)
  have hsecond := performs_sendbyte (hfirst.noReset hr) hfirst.todo hfirst.replies
  have hend := reaches_complete (hsecond.noReset (hfirst.noReset hr)) hsecond.todo rfl
  rw [cleared, Expand.clear, ← performed_performed]
  exact .trans hfirst.1 (.trans hsecond.1 hend)

/-- Settles O32: what CLEAR leaves, read off its last state. -/
theorem clearRunsToItsResult : Obligations.ClearRunsToItsResult := by
  intro s rest hb hf hr ha
  obtain ⟨k, hk⟩ := reaches_cleared hr ha
  exact ⟨_, k, cleared rest s, exec_clear_accepted hb hf, rfl, hk, rfl, rfl, rfl, rfl, rfl, rfl, rfl, rfl, Nat.zero_add _, hf,
    rfl, ⟨rfl, rfl, rfl, rfl, rfl⟩, rfl, rfl, fun _ => rfl, rfl, rfl⟩

/-- CLEAR at the port of an idle block that is ready. -/
theorem reaches_cleared_of_idle {text : List Byte} {later : List Request} (hidle : idle s) (hf : s.fsm = .ready)
    (ha : answersOk s 8 rest) (hq : s.requests = ⟨0x10000#18, text⟩ :: later) :
    Reaches s (cleared rest (takeRequest ⟨0x10000#18, text⟩ later s)) := by
  obtain ⟨hb, ht, hr⟩ := hidle
  have hword : decode .req (0x10000#18).toNat = .ok .clear := by decide
  have hstep : step s = .next (accept .clear (clearProgram s.cfg) (takeRequest ⟨0x10000#18, text⟩ later s)) := by
    rw [step_of_idle hr ht hb, portStep_of_request hq (decodePort_of_decode hword)]
    exact exec_clear_accepted hb hf
  exact .of_step hstep (reaches_cleared hr ha)

/-- Settles O33: the block is idle and ready again after the first CLEAR. -/
theorem clearTwiceEmitsTheSameTwice : Obligations.ClearTwiceEmitsTheSameTwice := by
  intro s rest text text' hidle hf ha hq
  obtain ⟨-, -, hr⟩ := id hidle
  have hfirst := reaches_cleared_of_idle hidle hf (answersOk_add (m := 8) (n := 8) ha) hq
  have hsecond := reaches_cleared_of_idle (s := cleared _ (takeRequest ⟨0x10000#18, text⟩ [⟨0x10000#18, text'⟩] s))
    (rest := rest) ⟨rfl, rfl, hr⟩ hf rfl rfl
  obtain ⟨k, hk⟩ := hfirst.trans hsecond
  exact ⟨k, _, hk, rfl, hf, rfl, rfl, rfl⟩

/-! ### WRSTR with every answer `ok` -/

/-- One character of the text: the test, the byte sent, and the step to the next index (R186). -/
theorem reaches_character {b : Byte} (hr : s.resetIn = []) (ht : s.todo = .textLoop :: tasks) (hlt : s.idx < s.len)
    (hb : Memory.read s.txt s.idx = some b) (ha : answersOk s 4 rest) :
    Reaches s (performed (Expand.sendbyte s.cfg s.bl b true) (.textLoop :: tasks) rest
      { s with idx := s.idx + 1, cmd := b, rs := true, nib := loNibble s.cfg b true }) := by
  have htest : step s = .next { s with todo := .op (.wrdata b) :: .textNext :: tasks } :=
    (step_of_task hr ht).trans (textLoopStep_enter hlt hb)
  have hsend : step { s with todo := .op (.wrdata b) :: .textNext :: tasks } =
      .next { s with todo := .op (.sendbyte b true) :: .textNext :: tasks } :=
    step_of_op (s := { s with todo := .op (.wrdata b) :: .textNext :: tasks }) hr rfl
  have hbyte := performs_sendbyte (s := { s with todo := .op (.sendbyte b true) :: .textNext :: tasks }) hr rfl ha
  have hnext := step_of_task (hbyte.noReset hr) hbyte.todo
  exact .of_step htest (.of_step hsend (.trans hbyte.1 (.single hnext)))

/-- The expansion of a text, character by character. -/
theorem text_cons (c : Config) (bl : Bool) (b : Byte) (left : List Byte) :
    Expand.text c bl (b :: left) = Expand.sendbyte c bl b true ++ Expand.text c bl left := List.flatMap_cons

/-- The state after the loop over `left`, what is left of the text, with every write answered `ok`: `RS` is 1 once a character
is sent. -/
def looped (left : List Byte) (tasks : List Task) (rest : List (Option Reply)) (cmd nib : Byte) (s : State) : State :=
  performed (Expand.text s.cfg s.bl left) tasks rest { s with idx := s.len, cmd, rs := s.rs || !left.isEmpty, nib }

/-- The loop at the end of the text changes nothing. -/
theorem looped_nil (hidx : s.idx = s.len) (ha : s.replies = rest) :
    looped [] tasks rest s.cmd s.nib s = { s with todo := tasks } := by
  subst ha
  simp [looped, performed, Expand.text, writeBytes, ← hidx]

/-- The loop over a character and what follows it. -/
theorem looped_cons (b : Byte) (left : List Byte) (cmd nib nib' : Byte) (tasks' : List Task) (answers : List (Option Reply)) :
    looped left tasks rest cmd nib (performed (Expand.sendbyte s.cfg s.bl b true) tasks' answers
      { s with idx := s.idx + 1, cmd := b, rs := true, nib := nib' }) = looped (b :: left) tasks rest cmd nib s := by
  rw [looped, looped, text_cons, List.isEmpty_cons, Bool.not_false, Bool.or_true, ← performed_performed _ _ tasks' answers]
  rfl

/-- The loop over what is left of the text. -/
theorem reaches_looped {text left : List Byte} (hr : s.resetIn = []) (ht : s.todo = .textLoop :: tasks)
    (htxt : s.txt = Memory.ofBytes text) (hleft : left = text.drop s.idx) (hlen : s.idx + left.length = s.len)
    (ha : answersOk s (4 * left.length) rest) : ∃ cmd nib, Reaches s (looped left tasks rest cmd nib s) := by
  induction left generalizing s with
  | nil =>
    have hend : s.idx = s.len := hlen
    have hstep := (step_of_task hr ht).trans (textLoopStep_leave (Nat.not_lt.2 hend.ge))
    have hsame := looped_nil (tasks := tasks) (rest := rest) hend ha
    exact ⟨s.cmd, s.nib, .single (hsame ▸ hstep)⟩
  | cons b left ih =>
    rw [List.length_cons] at hlen ha
    obtain ⟨-, hnext⟩ := drop_succ_of_drop_eq_cons hleft
    have hread : Memory.read s.txt s.idx = some b := by
      rw [htxt, textSpaceReadsAsTheText, ← List.head?_drop, ← hleft, List.head?_cons]
    have hchar := reaches_character hr ht (by omega) hread
      (answersOk_add (m := 4) (n := 4 * left.length) (by rwa [Nat.add_comm]))
    obtain ⟨cmd, nib, hrest⟩ := ih (s := performed (Expand.sendbyte s.cfg s.bl b true) (.textLoop :: tasks) _
      { s with idx := s.idx + 1, cmd := b, rs := true, nib := loNibble s.cfg b true }) hr rfl htxt hnext
      ((Nat.succ_add_eq_add_succ ..).trans hlen) rfl
    rw [looped_cons] at hrest
    exact ⟨cmd, nib, hchar.trans hrest⟩

/-- The address of a WRSTR: `ADDR` is loaded and sent as a command (R183). -/
theorem reaches_address (hr : s.resetIn = []) (ht : s.todo = .op (.setaddr row col) :: tasks)
    (haddr : addrByte s.cfg row col = some a) (ha : answersOk s 4 rest) :
    Reaches s (performed (Expand.sendbyte s.cfg s.bl a false) tasks rest
      { s with addr := a, cmd := a, rs := false, nib := loNibble s.cfg a false }) := by
  have hstep := (step_of_op hr ht).trans (exec_setaddr_of_addr (s := { s with todo := tasks }) haddr)
  have hsend := performs_sendbyte (s := push [.op (.sendbyte a false)] { s with todo := tasks, addr := a }) hr rfl ha
  exact .of_step hstep hsend.1

/-- Every character performs twelve primitives. -/
theorem length_text (c : Config) (bl : Bool) (text : List Byte) : (Expand.text c bl text).length = 12 * text.length := by
  induction text with
  | nil => rfl
  | cons b text ih =>
    rw [text_cons, List.length_append, ih, List.length_cons, Nat.mul_succ, Nat.add_comm]
    rfl

/-- A WRSTR performs twelve primitives for its address and for each byte of its text. -/
theorem length_wrstr (h : addrByte c row col = some a) (bl : Bool) (text : List Byte) :
    (Expand.wrstr c bl row col text).length = 12 * (1 + text.length) := by
  rw [wrstr_expansion_of_addr h, List.length_append, length_text, Nat.mul_add]
  rfl

/-- The state after WRSTR of a text with every write answered `ok`, and the answers `rest` left. -/
def written (row col a : Byte) (text : List Byte) (rest : List (Option Reply)) (cmd nib : Byte) (s : State) : State :=
  complete (performed (Expand.wrstr s.cfg s.bl row col text) [] rest (accept .wrstr []
    { s with row, col, addr := a, len := text.length, idx := text.length, cmd, rs := !text.isEmpty, nib }))

/-- An accepted WRSTR sends its address, then its text, and ends. -/
theorem reaches_written {text : List Byte} (hr : s.resetIn = []) (htxt : s.txt = Memory.ofBytes text)
    (haddr : addrByte s.cfg row col = some a) (ha : answersOk s (4 * (1 + text.length)) rest) :
    ∃ cmd nib, Reaches (accept .wrstr (wrstrProgram row col) { s with row, col, len := Memory.size s.txt, idx := 0 })
      (written row col a text rest cmd nib s) := by
  have hsize : Memory.size s.txt = text.length := htxt ▸ Memory.size_ofBytes text
  rw [hsize]
  have hfirst := reaches_address (tasks := [.textLoop])
    (s := accept .wrstr (wrstrProgram row col) { s with row, col, len := text.length, idx := 0 }) hr rfl haddr
    (answersOk_add (m := 4) (n := 4 * text.length) (by rwa [Nat.mul_add] at ha))
  obtain ⟨cmd, nib, hloop⟩ := reaches_looped (tasks := []) (rest := rest) (text := text) (left := text)
    (s := performed (Expand.sendbyte s.cfg s.bl a false) [.textLoop] _ (accept .wrstr []
      { s with row, col, addr := a, len := text.length, idx := 0, cmd := a, rs := false, nib := loNibble s.cfg a false }))
    hr rfl htxt rfl (Nat.zero_add _) rfl
  refine ⟨cmd, nib, hfirst.trans (hloop.trans ?_)⟩
  rw [written, wrstr_expansion_of_addr haddr, ← performed_performed]
  exact reaches_complete hr rfl rfl

/-- Settles O40: what WRSTR leaves, read off its last state. -/
theorem wrstrRunsToItsResult : Obligations.WrstrRunsToItsResult := by
  intro row col a text s rest hb hf hr htxt haddr ha
  obtain ⟨cmd, nib, k, hk⟩ := reaches_written hr htxt haddr ha
  exact ⟨_, k, written row col a text rest cmd nib s, exec_wrstr_accepted hb hf (by simp [haddr]), rfl, hk, rfl, rfl, rfl,
    rfl, rfl, rfl, rfl, rfl, rfl, rfl, rfl, rfl, (Nat.zero_add _).trans (length_wrstr haddr s.bl text), rfl, hf,
    rfl, rfl, rfl, fun _ => rfl, rfl, rfl⟩

end Sys2Proof.Machine
end

section
/-! PROOFS of the exceptions family: the failed bus write (O11), the refusals of a request (O44), the order of the checks on it
(O46), and where the machine stops (O59). -/

namespace Sys2Proof.Machine

variable {s : State} {row col : Byte}

/-! ### The failed bus write -/

/-- Settles O11: the listed answer `fail` is used up and the abort gives the result of the phase. -/
theorem buswrAnsweredFailAborts : Obligations.BuswrAnsweredFailAborts := by
  intro b s rest h
  have hw : exec (.buswr b) s = _ := busWrite_fail b h
  rw [hw]
  exact ⟨Config.freeByte s.draws, failCode s.running, rfl, rfl⟩

/-! ### A request in a state that does not admit it -/

/-- An idle block outside `PoweredUnknown` refuses INIT (R208, R219). -/
theorem exec_init_badState (hb : s.busy = false) (hf : s.fsm ≠ .poweredUnknown) :
    exec .init s = .next (refuse .badState s) := by
  obtain ⟨hb', -⟩ | ⟨-, -, e⟩ | ⟨-, hf', -⟩ := execInit_cases s
  · cases hb.symm.trans hb'
  · exact e
  · exact absurd hf' hf

/-- An idle block that is not ready refuses CLEAR (R208, R219). -/
theorem exec_clear_badState (hb : s.busy = false) (hf : s.fsm ≠ .ready) : exec .clear s = .next (refuse .badState s) := by
  obtain ⟨hb', -⟩ | ⟨-, -, e⟩ | ⟨-, hf', -⟩ := execClear_cases s
  · cases hb.symm.trans hb'
  · exact e
  · exact absurd hf' hf

/-- An idle block that is not ready refuses WRSTR, whatever its row (R208, R211). -/
theorem exec_wrstr_badState (hb : s.busy = false) (hf : s.fsm ≠ .ready) :
    exec (.wrstr row col) s = .next (refuse .badState s) := by
  obtain ⟨hb', -⟩ | ⟨-, -, e⟩ | ⟨-, hf', -⟩ | ⟨-, hf', -⟩ := execWrstr_cases row col s
  · cases hb.symm.trans hb'
  · exact e
  · exact absurd hf' hf
  · exact absurd hf' hf

/-- Settles O44: the refusal of each request, with the two fields it writes. -/
theorem wrongStateIsRefused : Obligations.WrongStateIsRefused := fun _ hb =>
  ⟨exec_init_badState hb, exec_clear_badState hb, fun hf _ _ => exec_wrstr_badState hb hf⟩

/-! ### The order of the checks -/

/-- A request word is put together from its three fields (R97). -/
theorem requestWord_toNat (w : BitVec 18) :
    w.toNat = (w.extractLsb' 16 2).toNat * 2 ^ 16 + (w.extractLsb' 8 8).toNat * 2 ^ 8 + (w.extractLsb' 0 8).toNat := by
  simp only [BitVec.extractLsb'_toNat, Nat.shiftRight_eq_div_pow]
  omega

/-- The port reads nothing in a word that the decoder of request words rejects. -/
theorem decodePort_of_error {r : Request} {e : DecodeError} (h : decode .req r.word.toNat = .error e) : decodePort r = none := by
  simp [decodePort, decode?, h]

/-- The four values of the `op` field. -/
theorem opField_cases : ∀ op : BitVec 2, op = 0#2 ∨ op = 1#2 ∨ op = 2#2 ∨ op = 3#2 := by decide

/-- The port reads a request by its `op` field; `op = 3` is reserved (R97, R207). -/
theorem decodePort_by_op (r : Request) :
    (r.word.extractLsb' 16 2 = 0#2 ∧ decodePort r = some .init) ∨
    (r.word.extractLsb' 16 2 = 1#2 ∧ decodePort r = some .clear) ∨
    (r.word.extractLsb' 16 2 = 2#2 ∧ decodePort r = some (.wrstr (r.word.extractLsb' 8 8) (r.word.extractLsb' 0 8))) ∨
    (r.word.extractLsb' 16 2 = 3#2 ∧ decodePort r = none) := by
  have hword := requestWordReadsOpRowCol _ _ _ (r.word.extractLsb' 16 2).isLt (r.word.extractLsb' 8 8).isLt
    (r.word.extractLsb' 0 8).isLt
  rw [← requestWord_toNat, ofNat_toNat_self, ofNat_toNat_self] at hword
  obtain hop | hop | hop | hop := opField_cases (r.word.extractLsb' 16 2) <;> rw [hop] at hword
  · exact .inl ⟨hop, decodePort_of_decode hword⟩
  · exact .inr (.inl ⟨hop, decodePort_of_decode hword⟩)
  · exact .inr (.inr (.inl ⟨hop, decodePort_of_decode hword⟩))
  · exact .inr (.inr (.inr ⟨hop, decodePort_of_error hword⟩))

/-- An idle block with a reserved `op` at its port refuses it (R207). -/
theorem portStep_of_badOp {r : Request} {rest : List Request} (h : s.requests = r :: rest) (hr : decodePort r = none) :
    portStep exec s = .next (refuse .badOp (takeRequest r rest s)) := by simp [portStep, h, hr]

/-- Settles O46: the step is that of the request `op` selects, which checks the state and then, for WRSTR, the row. -/
theorem admissionChecksInOrder : Obligations.AdmissionChecksInOrder := by
  intro s r rest hidle hq
  obtain ⟨hb, ht, hr⟩ := hidle
  have hport := step_of_idle hr ht hb
  have hrun {i : Instr} (hi : decodePort r = some i) : step s = exec i (takeRequest r rest s) :=
    hport.trans (portStep_of_request hq hi)
  obtain ⟨hop, hi⟩ | ⟨hop, hi⟩ | ⟨hop, hi⟩ | ⟨hop, hi⟩ := decodePort_by_op r
  · by_cases hf : s.fsm = .poweredUnknown
    · exact ⟨_, (hrun hi).trans (exec_init_accepted hb hf), rfl, rfl, by simp [hop, hf]⟩
    · exact ⟨_, (hrun hi).trans (exec_init_badState hb hf), rfl, rfl, by simp [hop, hf, hb]⟩
  · by_cases hf : s.fsm = .ready
    · exact ⟨_, (hrun hi).trans (exec_clear_accepted hb hf), rfl, rfl, by simp [hop, hf]⟩
    · exact ⟨_, (hrun hi).trans (exec_clear_badState hb hf), rfl, rfl, by simp [hop, hf, hb]⟩
  · by_cases hf : s.fsm = .ready
    · by_cases ha : addrByte s.cfg (r.word.extractLsb' 8 8) (r.word.extractLsb' 0 8) = none
      · exact ⟨_, (hrun hi).trans (exec_wrstr_badRow hb hf ha), rfl, rfl, by simp [hop, hf, ha, hb]⟩
      · exact ⟨_, (hrun hi).trans (exec_wrstr_accepted hb hf ha), rfl, rfl, by simp [hop, hf, ha]⟩
    · exact ⟨_, (hrun hi).trans (exec_wrstr_badState hb hf), rfl, rfl, by simp [hop, hf, hb]⟩
  · exact ⟨_, hport.trans (portStep_of_badOp hq hi), rfl, rfl, by simp [hop, hb]⟩

/-! ### Where the machine stops -/

/-- The answer of a state that goes on, or stops because the next bus write is never answered (R226). -/
def StopsOnlyByHang (s : State) (a : Answer) : Prop :=
  (∃ t, a = .next t) ∨ (a = .fault .transportHang ∧ s.replies.head? = some none)

theorem busWrite_stopsOnlyByHang (b : Byte) (s : State) : StopsOnlyByHang s (busWrite b s) := by
  cases h : busWrite b s with
  | next t => exact .inl ⟨t, rfl⟩
  | fault f =>
    obtain ⟨rfl, rest, hr⟩ := busWrite_fault h
    exact .inr ⟨rfl, by rw [hr, List.head?_cons]⟩
  | refused r => exact absurd h (busWrite_not_refused b s r)

/-- An operation that is no request makes one bus write, or goes on. -/
theorem exec_inner_stopsOnlyByHang {i : Instr} (hi : (Task.op i).isInner s.cfg = true) : StopsOnlyByHang s (exec i s) := by
  obtain ⟨b, -, e⟩ | ⟨k, -, e⟩ | ⟨front, t, e, -⟩ := inner_exec i s hi
  · exact e ▸ busWrite_stopsOnlyByHang b s
  · exact .inl ⟨_, e⟩
  · exact .inl ⟨t, e⟩

/-- A request goes on: it is not taken, refused by the block, or accepted. -/
theorem exec_request_next {i : Instr} (hi : i.isRequest = true) (s : State) : ∃ t, exec i s = .next t := by
  obtain rfl | rfl | ⟨row, col, rfl⟩ := isRequest_cases hi
  · obtain ⟨-, e⟩ | ⟨-, -, e⟩ | ⟨-, -, e⟩ := execInit_cases s <;> exact ⟨_, e⟩
  · obtain ⟨-, e⟩ | ⟨-, -, e⟩ | ⟨-, -, e⟩ := execClear_cases s <;> exact ⟨_, e⟩
  · obtain ⟨-, e⟩ | ⟨-, -, e⟩ | ⟨-, -, -, e⟩ | ⟨-, -, a, -, e⟩ := execWrstr_cases row col s <;> exact ⟨_, e⟩

/-- An idle block goes on, whatever stands at its port. -/
theorem portStep_next (s : State) : ∃ t, portStep exec s = .next t := by
  cases hq : s.requests with
  | nil => exact ⟨s, portStep_of_no_request hq⟩
  | cons r rest =>
    cases hi : decodePort r with
    | none => exact ⟨_, portStep_of_badOp hq hi⟩
    | some i =>
      rw [portStep_of_request hq hi]
      exact exec_request_next (isRequest_of_decodePort hi) _

/-- WRSTR's loop reads inside the text only (R55). -/
theorem textLoopStep_next_of_wrstrShape (h : wrstrShape s) (rest : List Task) : ∃ t, textLoopStep rest s = .next t := by
  by_cases hlt : s.idx < s.len
  · obtain ⟨b, hb⟩ := wrstrShape_read h hlt
    exact ⟨_, textLoopStep_enter hlt hb⟩
  · exact ⟨_, textLoopStep_leave hlt⟩

/-- The task at the head of the sequencer goes on, or is a bus write that is never answered. -/
theorem taskStep_stopsOnlyByHang {x : Task} {rest : List Task} (hs : SafeState s) (ht : s.todo = x :: rest) :
    StopsOnlyByHang s (taskStep exec x rest s) := by
  have hhead := phaseShape_head hs.shape ht
  cases x with
  | op i =>
    obtain ⟨hi, -, -⟩ := hhead
    have hop : StopsOnlyByHang { s with todo := rest } _ := exec_inner_stopsOnlyByHang hi
    exact hop
  | initStep n => exact .inl ⟨_, rfl⟩
  | textLoop =>
    obtain ⟨-, hshape, -⟩ := hhead
    exact .inl (textLoopStep_next_of_wrstrShape hshape rest)
  | textNext => exact .inl ⟨_, rfl⟩

/-- A step with the reset line low goes on, or is a bus write that is never answered. -/
theorem advance_stopsOnlyByHang (hs : SafeState s) : StopsOnlyByHang s (advance exec s) := by
  cases ht : s.todo with
  | cons x rest => simpa only [advance, ht] using taskStep_stopsOnlyByHang hs ht
  | nil =>
    cases hb : s.busy with
    | true => exact .inl ⟨complete s, by simp [advance, ht, hb]⟩
    | false =>
      obtain ⟨t, h⟩ := portStep_next s
      exact .inl ⟨t, by simpa [advance, ht, hb] using h⟩

/-- Every step of a state of the invariant goes on, or is a bus write that is never answered. -/
theorem step_stopsOnlyByHang (hs : SafeState s) : StopsOnlyByHang s (step s) := by
  match hr : s.resetIn with
  | [] => simpa only [step, stepWith, hr] using advance_stopsOnlyByHang hs
  | true :: later => exact .inl ⟨_, step_of_reset hr⟩
  | false :: later =>
    have hlow : StopsOnlyByHang { s with resetIn := later } _ := advance_stopsOnlyByHang (hs.with_resetIn later)
    rw [step_of_low hr]
    exact hlow

/-- Settles O59: the one way to stop is the bus write without an answer. -/
theorem onlyAHangStopsTheMachine : Obligations.OnlyAHangStopsTheMachine := by
  intro s hs
  obtain ⟨t, h⟩ | ⟨h, hhang⟩ := step_stopsOnlyByHang hs <;> rw [h]
  · exact ⟨fun _ hf => (nomatch hf), fun _ hr => nomatch hr⟩
  · exact ⟨fun f hf => ⟨(Host.Outcome.fault.inj hf).symm, hhang⟩, fun _ hr => nomatch hr⟩

end Sys2Proof.Machine
end

section
/-! PROOFS of the reset and hazards family: every answered request ends (O58), the timing figures (O47), and the reset line
(O6). -/

namespace Sys2Proof.Machine

variable {s t : State} {c : Config}

/-! ### The end of an answered request (R255) -/

/-- No operation touches the reset line or adds an answer, so the transport goes on answering. -/
theorem answering_of_exec {i : Instr} (ha : answering s) (h : exec i s = .next t) : answering t := by
  obtain ⟨hreset, hreplies⟩ := ha
  obtain ⟨⟨-, -, -, -, hline⟩, -, -, hsuffix, -⟩ := noOperationWritesParametersTextOrRequests i s t h
  exact ⟨hline.trans hreset, fun r hr => hreplies r (hsuffix.mem hr)⟩

/-- Between two primitives no answer is used up. -/
theorem answering_of_silent (ha : answering s) (hq : Silent s t) : answering t := by
  obtain ⟨hreset, hreplies⟩ := ha
  obtain ⟨⟨-, -, hsame, -⟩, -, -, hline, -⟩ := hq
  exact ⟨hline.trans hreset, hsame ▸ hreplies⟩

/-- A bus write that the transport answers goes on. -/
theorem busWrite_next_of_answering (ha : answering s) (b : Byte) : ∃ t, busWrite b s = .next t := by
  obtain ⟨-, hreplies⟩ := ha
  obtain h | ⟨-, hhang⟩ := busWrite_stopsOnlyByHang b s
  · exact h
  · exact absurd rfl (hreplies none (List.mem_of_head? hhang))

/-- While the transport answers, a step with something left to do goes on, leaves the transport answering, and brings the end
nearer, whichever the answer. -/
theorem step_brings_end_nearer {x : Task} {rest : List Task} (hs : SafeState s) (ha : answering s) (ht : s.todo = x :: rest) :
    ∃ t, step s = .next t ∧ answering t ∧ stepsLeft t < stepsLeft s := by
  obtain ⟨t, hstep, hq, hlt⟩ | ⟨tasks, hlt, ⟨k, hstep, -⟩ | ⟨b, hstep, -⟩⟩ := hs.nextPrimitive ha.left ht
  · exact ⟨t, hstep, answering_of_silent ha hq, hlt⟩
  · exact ⟨_, hstep, ha, hlt⟩
  · have ha' : answering { s with todo := tasks } := ha
    obtain ⟨t, hw⟩ := busWrite_next_of_answering ha' b
    exact ⟨t, hstep.trans hw, answering_of_exec (i := .buswr b) ha' hw, (busWrite_stepsLeft_le hw).trans_lt hlt⟩

/-- Settles O58, by induction on the steps left: with nothing left the request ends, and any other step ends it or brings the end
nearer. -/
theorem everyAnsweredRequestEnds : Obligations.EveryAnsweredRequestEnds := by
  intro s hs hb ha
  suffices ∃ t, Reaches s t ∧ t.busy = false by
    obtain ⟨t, ⟨k, hk⟩, hidle⟩ := this
    exact ⟨k, t, hk, hidle⟩
  induction hn : stepsLeft s using Nat.strong_induction_on generalizing s with
  | _ n ih =>
    subst hn
    cases ht : s.todo with
    | nil => exact ⟨complete s, reaches_complete ha.left ht hb, rfl⟩
    | cons x rest =>
      obtain ⟨t, hstep, hanswering, hlt⟩ := step_brings_end_nearer hs ha ht
      cases hbusy : t.busy with
      | false => exact ⟨t, .single hstep, hbusy⟩
      | true =>
        obtain ⟨u, hreach, hidle⟩ := ih _ hlt t (stepKeepsTheInvariant s t hs hstep) hbusy hanswering rfl
        exact ⟨u, .of_step hstep hreach, hidle⟩

/-! ### The timing figures (R254) -/

/-- Delays add (R124): the least time of an expansion is that of its parts. -/
@[simp] theorem minMicros_append (c : Config) (e f : List Prim) : minMicros c (e ++ f) = minMicros c e + minMicros c f := by
  induction e with
  | nil => exact (Nat.zero_add _).symm
  | cons p e ih =>
    cases p with
    | buswr b => exact ih
    | wait k => rw [List.cons_append, minMicros, minMicros, ih, Nat.add_assoc]

/-- The high half of a strobe: the enable bit is high for this long. -/
theorem minMicros_strobe_high (c : Config) (bl : Bool) (n : Byte) :
    minMicros c ((Expand.strobe c bl n).take 3) = c.tWr + c.tEh := rfl

/-- The low half of a strobe, until the next bus write. -/
theorem minMicros_strobe_low (c : Config) (bl : Bool) (n : Byte) :
    minMicros c ((Expand.strobe c bl n).drop 3) = c.tWr + c.tEl := rfl

/-- A strobe is its two halves. -/
@[simp] theorem minMicros_strobe (c : Config) (bl : Bool) (n : Byte) :
    minMicros c (Expand.strobe c bl n) = 2 * c.tWr + c.tEh + c.tEl := by
  rw [← List.take_append_drop 3 (Expand.strobe c bl n), minMicros_append, minMicros_strobe_high, minMicros_strobe_low]
  omega

/-- A byte is two strobes. -/
@[simp] theorem minMicros_sendbyte (c : Config) (bl : Bool) (b : Byte) (rs : Bool) :
    minMicros c (Expand.sendbyte c bl b rs) = 4 * c.tWr + 2 * c.tEh + 2 * c.tEl := by
  rw [Expand.sendbyte, minMicros_append, minMicros_strobe, minMicros_strobe]
  omega

/-- A bootstrap nibble is one strobe, under the default form. -/
theorem minMicros_bootnib (hform : c.bootForm = .strobedNibble) (bl : Bool) (v : Nibble) :
    minMicros c (Expand.bootnib c bl v) = 2 * c.tWr + c.tEh + c.tEl := by
  rw [Expand.bootnib, hform, minMicros_strobe]

/-- A text is a byte for each character. -/
theorem minMicros_text (c : Config) (bl : Bool) (text : List Byte) :
    minMicros c (Expand.text c bl text) = text.length * (4 * c.tWr + 2 * c.tEh + 2 * c.tEl) := by
  induction text with
  | nil => exact (Nat.zero_mul _).symm
  | cons b text ih =>
    rw [text_cons, minMicros_append, minMicros_sendbyte, ih, List.length_cons, Nat.succ_mul text.length, Nat.add_comm]

/-- SETADDR of a row that has an address is that byte. -/
theorem minMicros_setaddr {row col a : Byte} (h : addrByte c row col = some a) (bl : Bool) :
    minMicros c (Expand.setaddr c bl row col) = 4 * c.tWr + 2 * c.tEh + 2 * c.tEl := by
  rw [Expand.setaddr, h, minMicros_sendbyte]

/-- WRSTR is the address and the text. -/
theorem minMicros_wrstr {row col a : Byte} (h : addrByte c row col = some a) (bl : Bool) (text : List Byte) :
    minMicros c (Expand.wrstr c bl row col text) = (1 + text.length) * (4 * c.tWr + 2 * c.tEh + 2 * c.tEl) := by
  rw [Expand.wrstr, minMicros_append, minMicros_setaddr h, minMicros_text, Nat.add_mul, Nat.one_mul]

/-- CLEAR is two bytes. -/
theorem minMicros_clear (c : Config) (bl : Bool) :
    minMicros c (Expand.clear c bl) = 2 * (4 * c.tWr + 2 * c.tEh + 2 * c.tEl) := by
  rw [Expand.clear, minMicros_append, minMicros_sendbyte, minMicros_sendbyte, ← Nat.two_mul]

/-- INIT is four bootstrap nibbles, four bytes and the settling delay, under the default form. -/
theorem minMicros_init (hform : c.bootForm = .strobedNibble) (bl : Bool) :
    minMicros c (Expand.init c bl) =
      4 * (2 * c.tWr + c.tEh + c.tEl) + 4 * (4 * c.tWr + 2 * c.tEh + 2 * c.tEl) + c.tInit := by
  have hsettle : minMicros c [.wait .init] = c.tInit := rfl
  simp only [Expand.init, minMicros_append, minMicros_bootnib hform, minMicros_sendbyte, hsettle]
  omega

/-- Settles O47: each row over the parameters by the sum of its delays, and the design's values by evaluation. -/
theorem timingFigures : Obligations.TimingFigures :=
  ⟨fun c bl rs n b v _ _ _ text =>
    ⟨minMicros_strobe_high c bl n, minMicros_strobe_low c bl n, minMicros_strobe c bl n,
      fun hform => minMicros_bootnib hform bl v, minMicros_sendbyte c bl b rs,
      fun haddr => ⟨minMicros_setaddr haddr bl, minMicros_wrstr haddr bl text⟩, minMicros_clear c bl,
      fun hform => minMicros_init hform bl⟩,
    by decide⟩

/-! ### The reset line (R240, R241) -/

/-- Settles O6: a high level of the line makes the step the reset, which writes the listed fields and nothing outside. -/
theorem resetLineTakesEffectAnywhere : Obligations.ResetLineTakesEffectAnywhere := fun _ _ h =>
  ⟨_, step_of_reset h, rfl, rfl, rfl, rfl, rfl, rfl, rfl, rfl, rfl, rfl, rfl, rfl, rfl, rfl, rfl, rfl⟩

end Sys2Proof.Machine
end

section
/-! PROOFS of the family of the remaining statements: the codes of FSM and RESULT (O7), the wire phases (O14), and the emitted
bytes (O24). -/

namespace Sys2Proof.Machine

/-! ### Codes (R28, R201) -/

/-- Seven states, numbered from 0. -/
theorem fsmCode_ne_seven (f : Fsm) : f.code ≠ 7#3 := by cases f <;> decide

/-- Six result codes, numbered from 0. -/
theorem resultCode_toNat_lt_six (r : ResultCode) : r.code.toNat < 6 := by cases r <;> decide

/-- `FAILIDX` goes with the two codes of a failed bus write. -/
theorem hasFailIdx_iff (r : ResultCode) : r.hasFailIdx = true ↔ r = .ioError ∨ r = .initError := by cases r <;> decide

/-- Settles O7: the codes and the named states by evaluation of the tables; the codes that do not occur by their bounds. -/
theorem stateAndResultCodes : Obligations.StateAndResultCodes := by
  refine ⟨⟨rfl, rfl, rfl, rfl, rfl, rfl, rfl, fsmCode_ne_seven⟩, ⟨rfl, rfl, rfl, rfl, rfl, rfl, fun r => ?_⟩, by decide⟩
  have hlt := resultCode_toNat_lt_six r
  have hne : ∀ k : BitVec 3, 6 ≤ k.toNat → r.code ≠ k := fun k hk h => by rw [h] at hlt; omega
  exact ⟨hne 6#3 (by decide), hne 7#3 (by decide), hasFailIdx_iff r⟩

/-! ### The wire phases (R94) -/

/-- With the default parameters the enable-high byte is `dddd110r`. -/
theorem wireHigh_default : ∀ d r, wireHigh Config.default true (nibbleOf Config.default d r) =
    d ++ 0b110#3 ++ (if r then 1#1 else 0#1) := by decide

/-- With the default parameters the enable-low byte is `dddd100r`. -/
theorem wireLow_default : ∀ d r, wireLow Config.default true (nibbleOf Config.default d r) =
    d ++ 0b100#3 ++ (if r then 1#1 else 0#1) := by decide

/-- Settles O14: each phase is the answered bus write of its byte, and the byte is that of the defaults. -/
theorem wirePhasesWriteTheirByte : Obligations.WirePhasesWriteTheirByte := by
  refine fun d r s rest h => ⟨busWrite_ok _ h, busWrite_ok _ h, fun hcfg hbl => ?_⟩
  rw [hcfg, hbl]
  exact ⟨wireHigh_default d r, wireLow_default d r⟩

/-! ### The emitted bytes (R83 to R90) -/

/-- A byte sent whole is one SENDBYTE before the sequencer, and nothing else. -/
theorem sendWhole_eq (b : Byte) (rs : Bool) (s : State) :
    sendWhole b rs s = .next { s with todo := .op (.sendbyte b rs) :: s.todo } := rfl

/-- Settles O24: each emitted row is a byte sent whole. -/
theorem emittedBytesAreSentWhole : Obligations.EmittedBytesAreSentWhole := fun s =>
  ⟨sendWhole_eq s.cfg.cmdClear false s, sendWhole_eq s.cfg.cmdHome false s,
    fun id sh => sendWhole_eq (entryByte id sh) false s, fun d c b => sendWhole_eq (dispctlByte d c b) false s,
    fun l n f => sendWhole_eq (funcsetByte l n f) false s, fun a => sendWhole_eq (setddramByte s.cfg a) false s,
    fun b => sendWhole_eq b true s⟩

end Sys2Proof.Machine
end
